-- ==== Sys2Proof/Word.lean ====
section
/-! DEFINITION. The widths of the machine's words (00_scope.md R8, R10, R11). -/

namespace Sys2Proof

/-- A data byte: W, a register-file cell, an EEPROM cell (R8). -/
abbrev Byte := BitVec 8

/-- A program address: the PC and a return-stack entry (R8, R39). -/
abbrev ProgAddr := BitVec 13

/-- An instruction word: 14 significant bits (R83). -/
abbrev ProgWord := BitVec 14

/-- A program-memory entry as it is stored, a `u16` (R69). -/
abbrev StoredWord := BitVec 16

/-- The file-address operand `f` (R85). -/
abbrev FileAddr := BitVec 7

/-- The bit-index operand `b` (R85). -/
abbrev BitIndex := BitVec 3

/-- The 11-bit literal of GOTO and CALL (R85). -/
abbrev PageAddr := BitVec 11

end Sys2Proof
end

