-- ==== Sys2Proof/Syntax.lean ====
section
/-! DEFINITION. The 35 instructions (30_encoding.md R84 to R86), in the order of the opcode map. -/

namespace Sys2Proof

/-- The destination bit `d` (R85): 0 is W, 1 is the file register. -/
inductive Dest where
  | w
  | f
  deriving DecidableEq, Repr

/-- One constructor per row of the opcode map R86. The type of an operand is its field's width (R85), so
every term fits its encoding. Don't-care bits are no operand (R88). -/
inductive Instr where
  | addwf (f : FileAddr) (d : Dest)
  | subwf (f : FileAddr) (d : Dest)
  | andwf (f : FileAddr) (d : Dest)
  | iorwf (f : FileAddr) (d : Dest)
  | xorwf (f : FileAddr) (d : Dest)
  | comf (f : FileAddr) (d : Dest)
  | movf (f : FileAddr) (d : Dest)
  | incf (f : FileAddr) (d : Dest)
  | decf (f : FileAddr) (d : Dest)
  | incfsz (f : FileAddr) (d : Dest)
  | decfsz (f : FileAddr) (d : Dest)
  | bcf (f : FileAddr) (b : BitIndex)
  | bsf (f : FileAddr) (b : BitIndex)
  | btfsc (f : FileAddr) (b : BitIndex)
  | btfss (f : FileAddr) (b : BitIndex)
  | rlf (f : FileAddr) (d : Dest)
  | rrf (f : FileAddr) (d : Dest)
  | movwf (f : FileAddr)
  | clrf (f : FileAddr)
  | clrw
  | swapf (f : FileAddr) (d : Dest)
  | addlw (k : Byte)
  | sublw (k : Byte)
  | andlw (k : Byte)
  | iorlw (k : Byte)
  | xorlw (k : Byte)
  | movlw (k : Byte)
  | goto (k : PageAddr)
  | call (k : PageAddr)
  | ret
  | retlw (k : Byte)
  | retfie
  | nop
  | clrwdt
  | sleep
  deriving DecidableEq, Repr

end Sys2Proof
end

