-- ==== Sys2Proof/Decode.lean ====
section
/-! DEFINITION. The decoder, from the opcode map of 30_encoding.md R86, and the encoder, from the formats of
R84. Both follow the spec's tables separately. -/

namespace Sys2Proof

/-- Why a word is no instruction. -/
inductive DecodeError where
  /-- The word matches no row of R86; the step runs it as the implicit no-op of 40_step.md R107. -/
  | unmatchedWord (w : ProgWord)
  deriving DecidableEq, Repr

/-- One row of the opcode map R86: a word `w` spells the instruction when `w & mask == value`. -/
structure OpcodeRow where
  mask : ProgWord
  value : ProgWord
  /-- The instruction with its operands taken from the word by R85. -/
  build : ProgWord → Instr

/-- `f = word[6:0]` (R85). -/
def fieldF (w : ProgWord) : FileAddr := w.extractLsb' 0 7

/-- `d = word[7]` (R85). -/
def fieldD (w : ProgWord) : Dest := if w.getLsbD 7 then .f else .w

/-- `b = word[9:7]` (R85). -/
def fieldB (w : ProgWord) : BitIndex := w.extractLsb' 7 3

/-- `k = word[7:0]` of the `LIT` format (R85). -/
def fieldK8 (w : ProgWord) : Byte := w.extractLsb' 0 8

/-- `k = word[10:0]` of the `CTL` format (R85). -/
def fieldK11 (w : ProgWord) : PageAddr := w.extractLsb' 0 11

/-- A `BYTE_FD` row. -/
def rowFD (value : ProgWord) (i : FileAddr → Dest → Instr) : OpcodeRow :=
  { mask := 0x3F00, value := value, build := fun w => i (fieldF w) (fieldD w) }

/-- A `BYTE_F` row. -/
def rowF (value : ProgWord) (i : FileAddr → Instr) : OpcodeRow :=
  { mask := 0x3F80, value := value, build := fun w => i (fieldF w) }

/-- A `BIT` row. -/
def rowBit (value : ProgWord) (i : FileAddr → BitIndex → Instr) : OpcodeRow :=
  { mask := 0x3C00, value := value, build := fun w => i (fieldF w) (fieldB w) }

/-- A `LIT` row, with its own mask for the don't-care bits. -/
def rowLit (mask value : ProgWord) (i : Byte → Instr) : OpcodeRow :=
  { mask := mask, value := value, build := fun w => i (fieldK8 w) }

/-- A `CTL` row. -/
def rowCtl (value : ProgWord) (i : PageAddr → Instr) : OpcodeRow :=
  { mask := 0x3800, value := value, build := fun w => i (fieldK11 w) }

/-- A row without operands. -/
def rowFixed (mask value : ProgWord) (i : Instr) : OpcodeRow :=
  { mask := mask, value := value, build := fun _ => i }

/-- The rows of 41_file_alu.md. -/
def rowsFileAlu : List OpcodeRow :=
  [rowFD 0x0700 .addwf, rowFD 0x0200 .subwf, rowFD 0x0500 .andwf, rowFD 0x0400 .iorwf,
   rowFD 0x0600 .xorwf, rowFD 0x0900 .comf, rowFD 0x0800 .movf]

/-- The rows of 42_inc_dec_skip.md and 43_bit_ops.md. -/
def rowsIncBit : List OpcodeRow :=
  [rowFD 0x0A00 .incf, rowFD 0x0300 .decf, rowFD 0x0F00 .incfsz, rowFD 0x0B00 .decfsz,
   rowBit 0x1000 .bcf, rowBit 0x1400 .bsf, rowBit 0x1800 .btfsc, rowBit 0x1C00 .btfss]

/-- The rows of 44_rotate_move.md. -/
def rowsRotateMove : List OpcodeRow :=
  [rowFD 0x0D00 .rlf, rowFD 0x0C00 .rrf, rowF 0x0080 .movwf, rowF 0x0180 .clrf,
   rowFixed 0x3F80 0x0100 .clrw, rowFD 0x0E00 .swapf]

/-- The rows of 45_literal.md. -/
def rowsLiteral : List OpcodeRow :=
  [rowLit 0x3E00 0x3E00 .addlw, rowLit 0x3E00 0x3C00 .sublw, rowLit 0x3F00 0x3900 .andlw,
   rowLit 0x3F00 0x3800 .iorlw, rowLit 0x3F00 0x3A00 .xorlw, rowLit 0x3C00 0x3000 .movlw]

/-- The rows of 46_control.md and 47_misc.md. -/
def rowsControlMisc : List OpcodeRow :=
  [rowCtl 0x2800 .goto, rowCtl 0x2000 .call, rowFixed 0x3FFF 0x0008 .ret,
   rowLit 0x3C00 0x3400 .retlw, rowFixed 0x3FFF 0x0009 .retfie, rowFixed 0x3F9F 0x0000 .nop,
   rowFixed 0x3FFF 0x0064 .clrwdt, rowFixed 0x3FFF 0x0063 .sleep]

/-- The opcode map R86, 35 rows in the spec's order. -/
def opcodeRows : List OpcodeRow :=
  rowsFileAlu ++ rowsIncBit ++ rowsRotateMove ++ rowsLiteral ++ rowsControlMisc

/-- Whether a word spells a row's instruction (R86). -/
def OpcodeRow.spells (r : OpcodeRow) (w : ProgWord) : Bool := w &&& r.mask == r.value

/-- `Decode(w)` (R87): the one row the word matches, or a rejection by name. -/
def decode (w : ProgWord) : Except DecodeError Instr :=
  match opcodeRows.find? (fun r => r.spells w) with
  | some r => .ok (r.build w)
  | none => .error (.unmatchedWord w)

/-- The 14 significant bits of a stored word: bits 15 and 14 are ignored (R69, R83). -/
def significantBits (u : StoredWord) : ProgWord := u.setWidth 14

/-- The destination bit of a destination (R85). -/
def Dest.bit : Dest → BitVec 1
  | .w => 0
  | .f => 1

/-- The `BYTE_FD` format: opcode 13..8, `d` 7, `f` 6..0 (R84). -/
def encodeFD (op : BitVec 6) (f : FileAddr) (d : Dest) : ProgWord := op ++ d.bit ++ f

/-- The `BYTE_F` format: opcode 13..8, 1, `f` 6..0 (R84). -/
def encodeF (op : BitVec 6) (f : FileAddr) : ProgWord := op ++ 1#1 ++ f

/-- The `BIT` format: opcode 13..10, `b` 9..7, `f` 6..0 (R84). -/
def encodeBit (op : BitVec 4) (f : FileAddr) (b : BitIndex) : ProgWord := op ++ b ++ f

/-- The `LIT` format: opcode 13..8, `k` 7..0 (R84). -/
def encodeLit (op : BitVec 6) (k : Byte) : ProgWord := op ++ k

/-- The `CTL` format: opcode 13..11, `k` 10..0 (R84). -/
def encodeCtl (op : BitVec 3) (k : PageAddr) : ProgWord := op ++ k

/-- The word of an instruction, written from the formats of R84 with the opcode bits of the patterns of
R86 and every don't-care bit 0 (R88). -/
def encode : Instr → ProgWord
  | .addwf f d => encodeFD 0b000111 f d
  | .subwf f d => encodeFD 0b000010 f d
  | .andwf f d => encodeFD 0b000101 f d
  | .iorwf f d => encodeFD 0b000100 f d
  | .xorwf f d => encodeFD 0b000110 f d
  | .comf f d => encodeFD 0b001001 f d
  | .movf f d => encodeFD 0b001000 f d
  | .incf f d => encodeFD 0b001010 f d
  | .decf f d => encodeFD 0b000011 f d
  | .incfsz f d => encodeFD 0b001111 f d
  | .decfsz f d => encodeFD 0b001011 f d
  | .bcf f b => encodeBit 0b0100 f b
  | .bsf f b => encodeBit 0b0101 f b
  | .btfsc f b => encodeBit 0b0110 f b
  | .btfss f b => encodeBit 0b0111 f b
  | .rlf f d => encodeFD 0b001101 f d
  | .rrf f d => encodeFD 0b001100 f d
  | .movwf f => encodeF 0b000000 f
  | .clrf f => encodeF 0b000001 f
  | .clrw => 0b00000100000000
  | .swapf f d => encodeFD 0b001110 f d
  | .addlw k => encodeLit 0b111110 k
  | .sublw k => encodeLit 0b111100 k
  | .andlw k => encodeLit 0b111001 k
  | .iorlw k => encodeLit 0b111000 k
  | .xorlw k => encodeLit 0b111010 k
  | .movlw k => encodeLit 0b110000 k
  | .goto k => encodeCtl 0b101 k
  | .call k => encodeCtl 0b100 k
  | .ret => 0b00000000001000
  | .retlw k => encodeLit 0b110100 k
  | .retfie => 0b00000000001001
  | .nop => 0b00000000000000
  | .clrwdt => 0b00000001100100
  | .sleep => 0b00000001100011

/-- The don't-care bits of an instruction's row, as a mask (the `x` of R86, R88). -/
def dontCareBits : Instr → ProgWord
  | .nop => 0x0060
  | .clrw => 0x007F
  | .addlw _ | .sublw _ => 0x0100
  | .movlw _ | .retlw _ => 0x0300
  | .addwf _ _ | .subwf _ _ | .andwf _ _ | .iorwf _ _ | .xorwf _ _ | .comf _ _ | .movf _ _ => 0
  | .incf _ _ | .decf _ _ | .incfsz _ _ | .decfsz _ _ => 0
  | .bcf _ _ | .bsf _ _ | .btfsc _ _ | .btfss _ _ => 0
  | .rlf _ _ | .rrf _ _ | .movwf _ | .clrf _ | .swapf _ _ => 0
  | .andlw _ | .iorlw _ | .xorlw _ => 0
  | .goto _ | .call _ | .ret | .retfie | .clrwdt | .sleep => 0

/-- The instruction the decoder reads from an instruction of `nbits` bits whose bits are `w`, bit 0 the least
significant of its one word (R83); none where the word matches no row. -/
def decodeTableWord (nbits w : Nat) : Option Instr :=
  match decode (significantBits (BitVec.ofNat 16 (w % 2 ^ nbits))) with
  | .ok i => some i
  | .error _ => none

end Sys2Proof
end

