-- ==== Sys2Proof/Config.lean ====
section
/-! DEFINITION. What one chip fixes: the numbers of 00_scope.md R8 and the parameters of R9. -/

namespace Sys2Proof

/-- `STACK_DEPTH` (R8, R41; 90_conflicts.md C3). -/
def Config.stackDepth : Nat := 13

/-- Bytes of the data EEPROM (R8, R38). -/
def Config.eepromBytes : Nat := 64

/-- Cells of the register file (R8, R16). -/
def Config.cellCount : Nat := 256

/-- The largest `PROG_LEN` (R9). -/
def Config.maxProgLen : Nat := 8192

/-- The reset vector (R8, R75). -/
def Config.resetVector : ProgAddr := 0#13

/-- The interrupt vector (R8, R75). -/
def Config.interruptVector : ProgAddr := 4#13

/-- The open parameters that a step reads (R9, R52): fixed while the core runs.
`EEPROM_INIT`, the fifth parameter of R9, is only the power-on value of the EEPROM and is an argument
of `State.powerOn`. (DESIGN CHOICE, log 1: they are carried in State.) -/
structure Params where
  /-- `PROG`, as stored 16-bit words; `PROG_LEN` is its length (R69). -/
  prog : List StoredWord
  /-- `WDT_BASE_CYCLES`, the Watchdog's base timeout in machine cycles (R174). -/
  wdtBaseCycles : Nat
  /-- `CLRWDT_CLEARS_PS`: whether CLRWDT clears OPTION_REG bits 2:0 (R150). -/
  clrwdtClearsPs : Bool
  deriving DecidableEq, Repr

/-- The parameters of `State.reset`: no program loaded, and the values 95_test_vectors.md uses unless it
says otherwise. (DESIGN CHOICE, log 2: the spec leaves all three open; no statement rests on them.) -/
def Params.unloaded : Params := { prog := [], wdtBaseCycles := 1000, clrwdtClearsPs := false }

end Sys2Proof
end

