-- ==== Sys2Proof/Machine/Memory.lean ====
section
/-! DEFINITION. The two byte memories, the register file and the data EEPROM (20_memory.md R53), as lists of
cells in one canonical form, with what an unlisted address reads as. -/

namespace Sys2Proof.Machine

/-- The byte address spaces of R53. Program memory is words and is a parameter (`Params.prog`). -/
inductive Space where
  | registerFile
  | eeprom
  deriving DecidableEq, Repr

/-- `POWER_ON(p)`, the reset contents of physical cell `p` (70_reset_and_hazards.md R187). -/
def powerOnCell (p : Nat) : Byte :=
  if p = 0x03 ∨ p = 0x83 then 0x18#8
  else if p = 0x81 then 0xFF#8
  else if p = 0x85 then 0x1F#8
  else if p = 0x86 then 0xFF#8
  else 0x00#8

/-- What an address that a memory does not list reads as: the reset contents for the register file (R187);
0x00 for the EEPROM (DESIGN CHOICE, log 10: only the form a list takes, since any contents can be
listed). -/
def unlisted : Space → Nat → Byte
  | .registerFile, p => powerOnCell p
  | .eeprom, _ => 0x00#8

/-- Addresses of a space: 256 cells, 64 EEPROM bytes (R53). -/
def spaceSize : Space → Nat
  | .registerFile => Config.cellCount
  | .eeprom => Config.eepromBytes

/-- A byte memory: its listed cells, addresses strictly rising. -/
abbrev Memory := List Host.Cell

/-- The listed byte of an address, if any. -/
def Memory.lookup : Memory → Nat → Option Byte
  | [], _ => none
  | c :: m, a => if c.1 = a then some c.2 else Memory.lookup m a

/-- The byte an address reads as. -/
def Memory.read (sp : Space) (m : Memory) (a : Nat) : Byte := (Memory.lookup m a).getD (unlisted sp a)

/-- Takes an address out of the list. -/
def Memory.erase (m : Memory) (a : Nat) : Memory := m.filter (fun c => c.1 != a)

/-- Lists a byte at an address the list does not hold, in address order. -/
def Memory.insert : Memory → Nat → Byte → Memory
  | [], a, v => [(a, v)]
  | c :: m, a, v => if a < c.1 then (a, v) :: c :: m else c :: Memory.insert m a v

/-- Writes a byte: the value an unlisted address reads as removes the entry. -/
def Memory.write (sp : Space) (m : Memory) (a : Nat) (v : Byte) : Memory :=
  if v = unlisted sp a then Memory.erase m a else Memory.insert (Memory.erase m a) a v

/-- The canonical form: addresses strictly rising and inside the space, no entry equal to what an unlisted
address reads as. -/
abbrev Memory.wf (sp : Space) (m : Memory) : Prop :=
  m.Pairwise (fun c d => c.1 < d.1) ∧ ∀ c ∈ m, c.1 < spaceSize sp ∧ c.2 ≠ unlisted sp c.1

end Sys2Proof.Machine
end

