-- ==== Sys2Proof/Machine/State.lean ====
section
/-! DEFINITION. The machine's state (10_state.md), the reasons a step stops (60_exceptions.md R153), and the
state right after reset (70_reset_and_hazards.md R187 to R189). -/

namespace Sys2Proof.Machine

/-- The value of the `fault` element (10_state.md R50): the four kinds of R153 with what each records. -/
inductive FaultKind where
  /-- Fetch at `addr >= PROG_LEN` (R100). -/
  | pcOutOfRange (addr : ProgAddr)
  /-- Push onto 13 entries (R42). -/
  | stackOverflow
  /-- Pop of an empty stack (R43). -/
  | stackUnderflow
  /-- EEDATA read with RD = 1, or EEPROM commit, with EEADR = `i` >= 64 (R59, R66). -/
  | eepromAddressOutOfRange (i : Byte)
  deriving DecidableEq, Repr

/-- Everything the spec gives the machine (10_state.md), the parameters its step reads (00_scope.md R9), and the
step's cycle count. Every field is plain data. -/
@[ext]
structure State where
  /-- The parameters of R9 that a step reads; no step changes them (R52, R80; DESIGN CHOICE, log 1). -/
  params : Params
  /-- `W` (R15). -/
  w : Byte
  /-- The register file `cell[0x00..0xFF]` (R16); read through `State.cell`. -/
  cells : Memory
  /-- The data EEPROM `EE[0..63]` (R38); read through `State.eeByte`. -/
  ee : Memory
  /-- `PC` (R39). While an instruction executes it still holds the instruction's address `A` (R95). -/
  pc : ProgAddr
  /-- The pseudocode's `pc`: the address of the next instruction while one executes (40_step.md R102); between
  steps it equals `pc` (DESIGN CHOICE, log 5). -/
  pcNext : ProgAddr
  /-- The return stack, top first (R41). -/
  stack : List ProgAddr
  /-- `sleeping` (R44). -/
  sleeping : Bool
  /-- `two_cycle` (R45). -/
  twoCycle : Bool
  /-- `presc_count` (R46). -/
  prescCount : Nat
  /-- `tmr0_wait` (R47). -/
  tmr0Wait : Nat
  /-- `wdt_acc` (R48). -/
  wdtAcc : Nat
  /-- `t0ck_prev` (R49). -/
  t0ckPrev : Bool
  /-- `fault` (R50). -/
  fault : Option FaultKind
  /-- The value the last `Step()` returned (R95, R106); the model's own field (DESIGN CHOICE, log 4). -/
  cycles : Nat
  deriving DecidableEq, Repr

/-- Why a step stops: the four faults of R153, each with what it records and with `left`, the state the fault
leaves: `fault` set, the changes made earlier in the step kept, 0 cycles (R152). Each is a stop the spec itself
asks for, so all are safe (log 6). -/
inductive Fault where
  /-- Raised by the fetch phase (R100). Safe. -/
  | pcOutOfRange (addr : ProgAddr) (left : State)
  /-- Raised by CALL and interrupt entry (R144, R159). Safe. -/
  | stackOverflow (left : State)
  /-- Raised by RETURN, RETLW and RETFIE (R145 to R147). Safe. -/
  | stackUnderflow (left : State)
  /-- Raised by an instruction whose `f` resolves to EEDATA (read) or EECON1 (write) (R59, R66). Safe. -/
  | eepromAddressOutOfRange (i : Byte) (left : State)
  deriving DecidableEq, Repr

/-- Why the model gives a step no meaning. -/
inductive Refusal where
  /-- Raised by `exec` for an instruction without a meaning; no arm raises it. Safe. -/
  | notModelled (mnemonic : String)
  /-- Raised by a step with an empty program: `PROG_LEN >= 1` is a precondition of the model
  (93_implementation_defined.md U12; log 7). Safe. -/
  | programNotLoaded
  deriving DecidableEq, Repr

/-- What an instruction, an operation that can fault, or a step answers. -/
abbrev Out := Host.Outcome State Fault Refusal

/-- Physical cell `p` (R16): the stored byte, no banking, no side effect. -/
def State.cell (s : State) (p : Byte) : Byte := Memory.read .registerFile s.cells p.toNat

/-- EEPROM byte `i` (R38). -/
def State.eeByte (s : State) (i : Byte) : Byte := Memory.read .eeprom s.ee i.toNat

/-- `W <- v`. -/
def State.setW (s : State) (v : Byte) : State := { s with w := v }

/-- Replaces the register file as a whole. -/
def State.setCells (s : State) (m : Memory) : State := { s with cells := m }

/-- `cell[p] <- v`. -/
def State.setCell (s : State) (p v : Byte) : State :=
  s.setCells (Memory.write .registerFile s.cells p.toNat v)

/-- Replaces the EEPROM as a whole. -/
def State.setEe (s : State) (m : Memory) : State := { s with ee := m }

/-- `EE[i] <- v`. -/
def State.setEeByte (s : State) (i v : Byte) : State := s.setEe (Memory.write .eeprom s.ee i.toNat v)

/-- `PC <- v`, without its PCL mirror. -/
def State.setPcRaw (s : State) (v : ProgAddr) : State := { s with pc := v }

/-- `pc <- v` inside an instruction rule (R102). -/
def State.setPcNext (s : State) (v : ProgAddr) : State := { s with pcNext := v }

/-- Replaces the return stack. -/
def State.setStack (s : State) (l : List ProgAddr) : State := { s with stack := l }

/-- `sleeping <- b`. -/
def State.setSleeping (s : State) (b : Bool) : State := { s with sleeping := b }

/-- `two_cycle <- b`. -/
def State.setTwoCycle (s : State) (b : Bool) : State := { s with twoCycle := b }

/-- `presc_count <- n`. -/
def State.setPrescCount (s : State) (n : Nat) : State := { s with prescCount := n }

/-- `tmr0_wait <- n`. -/
def State.setTmr0Wait (s : State) (n : Nat) : State := { s with tmr0Wait := n }

/-- `wdt_acc <- n`. -/
def State.setWdtAcc (s : State) (n : Nat) : State := { s with wdtAcc := n }

/-- `t0ck_prev <- b`. -/
def State.setT0ckPrev (s : State) (b : Bool) : State := { s with t0ckPrev := b }

/-- `fault <- k`. -/
def State.setFault (s : State) (k : FaultKind) : State := { s with fault := some k }

/-- Records the value `Step()` returns. -/
def State.setCycles (s : State) (n : Nat) : State := { s with cycles := n }

/-- Loads a program (60_exceptions.md R182): it fixes `PROG` and `PROG_LEN`. -/
def State.loadProgram (s : State) (prog : List StoredWord) : State :=
  { s with params := { s.params with prog := prog } }

/-- The power-on state (R188): the reset state of R187 with the EEPROM holding `EEPROM_INIT` and no fault. -/
def State.powerOn (p : Params) (eepromInit : Memory) : State :=
  { params := p
    w := 0x00#8
    cells := []
    ee := eepromInit
    pc := Config.resetVector
    pcNext := Config.resetVector
    stack := []
    sleeping := false
    twoCycle := false
    prescCount := 0
    tmr0Wait := 0
    wdtAcc := 0
    t0ckPrev := false
    fault := none
    cycles := 0 }

/-- The machine right after reset: the power-on state with no program loaded (log 8), the parameters of
`Params.unloaded` (DESIGN CHOICE, log 2) and an EEPROM of zeros (DESIGN CHOICE, log 3). -/
def State.reset : State := State.powerOn Params.unloaded []

end Sys2Proof.Machine
end

