-- ==== Sys2Proof/Machine/Ops.lean ====
section
/-! DEFINITION. The operations every instruction and every phase of a step is made of: bit fields, faults, the
register file through the bank resolver (20_memory.md), program memory, the return stack, the program counter,
the interrupt entry and return (60_exceptions.md), and reset (70_reset_and_hazards.md). -/

namespace Sys2Proof.Machine

/-- Runs `k` on the state an operation leaves; a stop passes through. -/
def andThen (o : Out) (k : State → Out) : Out :=
  match o with
  | .next s => k s
  | .fault r => .fault r
  | .refused r => .refused r

/-- The byte `v` with bit `n` made `b`. -/
def withBit (v : Byte) (n : Nat) (b : Bool) : Byte :=
  if b then v ||| (1#8 <<< n) else v &&& ~~~(1#8 <<< n)

/-- Bit 7 of a bank-1 address, when `b` (R54). -/
def bankBit (b : Bool) : Byte := if b then 0x80#8 else 0x00#8

/-! ### Faults -/

/-- The fault outcome of a kind, with the state the fault leaves (R153). -/
def Fault.of (k : FaultKind) (left : State) : Fault :=
  match k with
  | .pcOutOfRange addr => .pcOutOfRange addr left
  | .stackOverflow => .stackOverflow left
  | .stackUnderflow => .stackUnderflow left
  | .eepromAddressOutOfRange i => .eepromAddressOutOfRange i left

/-- The state a fault leaves (R152). -/
def Fault.left : Fault → State
  | .pcOutOfRange _ s | .stackOverflow s | .stackUnderflow s | .eepromAddressOutOfRange _ s => s

/-- The kind of a fault (R153). -/
def Fault.kind : Fault → FaultKind
  | .pcOutOfRange addr _ => .pcOutOfRange addr
  | .stackOverflow _ => .stackOverflow
  | .stackUnderflow _ => .stackUnderflow
  | .eepromAddressOutOfRange i _ => .eepromAddressOutOfRange i

/-- `raise Fault(k)` (R152): `fault <- k`, the step ends here and returns 0, earlier changes stay. -/
def raise (k : FaultKind) (s : State) : Out := .fault (Fault.of k ((s.setFault k).setCycles 0))

/-! ### Fields of the special registers -/

/-- STATUS (R20), the bank-0 copy. -/
def State.status (s : State) : Byte := s.cell 0x03#8

/-- OPTION_REG (R27). -/
def State.optionReg (s : State) : Byte := s.cell 0x81#8

/-- INTCON (R28), the bank-0 copy. -/
def State.intcon (s : State) : Byte := s.cell 0x0B#8

/-- EECON1 (R36). -/
def State.eecon1 (s : State) : Byte := s.cell 0x88#8

/-- EEADR (R35). -/
def State.eeadr (s : State) : Byte := s.cell 0x09#8

/-- PCLATH (R31), the bank-0 copy. -/
def State.pclath (s : State) : Byte := s.cell 0x0A#8

/-- STATUS.C (R22). -/
def State.carry (s : State) : Bool := s.status.getLsbD 0

/-- STATUS.RP0, the bank select (R26). -/
def State.rp0 (s : State) : Bool := s.status.getLsbD 5

/-- STATUS.IRP, bit 7 of an indirect address (R26). -/
def State.irp (s : State) : Bool := s.status.getLsbD 7

/-- OPTION_REG.PS, bits 2:0 (R27). -/
def prescalerRate (opt : Byte) : Nat := (opt.extractLsb' 0 3).toNat

/-! ### Aliased registers written by the core itself (R68) -/

/-- Writes bit `n` of the aliased register at bank-0 cell `p` in both of its cells, with no side effect. -/
def writeAliasedBit (p : Byte) (n : Nat) (b : Bool) (s : State) : State :=
  (s.setCell p (withBit (s.cell p) n b)).setCell (p ||| 0x80#8) (withBit (s.cell (p ||| 0x80#8)) n b)

/-- `SetIntconBit(n)` (R68). -/
def setIntconBit (n : Nat) (s : State) : State := writeAliasedBit 0x0B#8 n true s

/-- `ClearIntconBit(n)` (R68). -/
def clearIntconBit (n : Nat) (s : State) : State := writeAliasedBit 0x0B#8 n false s

/-- Sets PCL, both cells, to `v` with no side effect (R101, R104). -/
def mirrorPcl (v : Byte) (s : State) : State := (s.setCell 0x02#8 v).setCell 0x82#8 v

/-- The low byte of a program address. -/
def lowByte (v : ProgAddr) : Byte := v.setWidth 8

/-- `SetPC(v)` (R104): PC and its PCL mirror; the model also keeps `pcNext` equal to PC between steps
(log 5). -/
def setPC (v : ProgAddr) (s : State) : State := mirrorPcl (lowByte v) ((s.setPcRaw v).setPcNext v)

/-! ### The bank resolver (R54 to R57) -/

/-- What `Resolve` answers: the primary cell, which a read uses, and the write set. -/
structure Resolved where
  primary : Byte
  writeSet : List Byte
  deriving DecidableEq, Repr

/-- The low seven bits of a logical address, which the class test uses (R54). -/
def low7 (a : Byte) : FileAddr := a.setWidth 7

/-- The logical address of a file operand, `zext_8(f)` (R85). -/
def fileAddress (f : FileAddr) : Byte := f.setWidth 8

/-- `FSR | (IRP << 7)`, the address an access through INDF names (R57). -/
def indirectAddress (s : State) : Byte := s.cell 0x04#8 ||| bankBit s.irp

/-- Whether an address whose low seven bits are `lo` is bank-aliased (R55). -/
def isAliased (lo : FileAddr) : Bool := lo == 0x02#7 || lo == 0x03#7 || lo == 0x04#7 || decide (0x0A#7 ≤ lo)

/-- Resolves an address that is not INDF any more (R55, R56). -/
def resolveDirect (a : Byte) (s : State) : Resolved :=
  if isAliased (low7 a) then
    { primary := fileAddress (low7 a), writeSet := [fileAddress (low7 a), fileAddress (low7 a) ||| 0x80#8] }
  else { primary := a ||| bankBit s.rp0, writeSet := [a ||| bankBit s.rp0] }

/-- `Resolve(a)` (R54): the INDF redirection, once (R57), then the class of the address. -/
def resolve (a : Byte) (s : State) : Resolved :=
  if low7 a = 0#7 then resolveDirect (indirectAddress s) s else resolveDirect a s

/-- `UNIMPL` (R58): the cells that read 0 and ignore writes (R19). -/
def isUnimplemented (p : Byte) : Bool := low7 p == 0x00#7 || low7 p == 0x07#7 || decide (0x50#7 ≤ low7 p)

/-! ### Reads (R58, R59) -/

/-- `EEDATA_READ` (R59). -/
def eedataRead (s : State) : Except FaultKind Byte :=
  if s.eecon1.getLsbD 0 then
    if 64 ≤ s.eeadr.toNat then .error (.eepromAddressOutOfRange s.eeadr) else .ok (s.eeByte s.eeadr)
  else .ok 0x00#8

/-- A read of the primary cell `p` (R58). -/
def readPrimary (p : Byte) (s : State) : Except FaultKind Byte :=
  if isUnimplemented p then .ok 0x00#8 else if p = 0x08#8 then eedataRead s else .ok (s.cell p)

/-- `MemRead(a, 1)` (R58): it changes no state. -/
def memRead (a : Byte) (s : State) : Except FaultKind Byte := readPrimary (resolve a s).primary s

/-! ### Writes (R60 to R66) -/

/-- Whether a write of PORTB from `old` to `v` makes the edge on bit 0 that INTEDG selects (R64). -/
def rb0Edge (opt old v : Byte) : Bool :=
  if opt.getLsbD 6 then !old.getLsbD 0 && v.getLsbD 0 else old.getLsbD 0 && !v.getLsbD 0

/-- Whether a write of PORTB from `old` to `v` changes an input pin among bits 7:4 (R64). -/
def portbInputChange (trisb old v : Byte) : Bool := (old ^^^ v) &&& 0xF0#8 &&& trisb != 0

/-- `PORTB_CHANGE(old, v)` (R64): INTF on the selected edge, else RBIF on an input change. -/
def portbChange (old v : Byte) (s : State) : State :=
  if rb0Edge s.optionReg old v then setIntconBit 1 s
  else if portbInputChange (s.cell 0x86#8) old v then setIntconBit 0 s
  else s

/-- The TMR0 side effect (R62): in timer mode a write sets `tmr0_wait` to 2. -/
def tmr0WriteEffect (p : Byte) (s : State) : State :=
  if p = 0x01#8 ∧ s.optionReg.getLsbD 5 = false then s.setTmr0Wait 2 else s

/-- `PCLATH[4:0] : v`, the target of a PCL write (R63). -/
def pclTarget (v : Byte) (s : State) : ProgAddr := s.pclath.extractLsb' 0 5 ++ v

/-- The PCL side effect (R63): a jump by write. -/
def pclWriteEffect (p v : Byte) (s : State) : State := if p = 0x02#8 then s.setPcNext (pclTarget v s) else s

/-- The PORTB side effect (R64). -/
def portbWriteEffect (p v : Byte) (s : State) : State := if p = 0x06#8 then portbChange (s.cell 0x06#8) v s else s

/-- The side effects that come before the generic write, in the order of R60. -/
def writeEffects (p v : Byte) (s : State) : State :=
  portbWriteEffect p v (pclWriteEffect p v (tmr0WriteEffect p s))

/-- The generic write (R65): every cell of the write set receives `v`. -/
def genericWrite (cells : List Byte) (v : Byte) (s : State) : State := cells.foldl (fun t q => t.setCell q v) s

/-- `EE_COMMIT` (R66): with WR and WREN set, stores the staged byte, clears WR and sets EEIF. -/
def eeCommit (s : State) : Out :=
  if s.eecon1.getLsbD 1 && s.eecon1.getLsbD 2 then
    if 64 ≤ s.eeadr.toNat then raise (.eepromAddressOutOfRange s.eeadr) s
    else .next ((s.setEeByte s.eeadr (s.cell 0x08#8)).setCell 0x88#8 (s.eecon1 &&& ~~~0x02#8 ||| 0x10#8))
  else .next s

/-- The commit that follows a write whose primary cell is EECON1 (R60, R66). -/
def commitAfterWrite (p : Byte) (s : State) : Out := if p = 0x88#8 then eeCommit s else .next s

/-- A write of `v` to a resolved address (R60, R61). -/
def writeResolved (r : Resolved) (v : Byte) (s : State) : Out :=
  if isUnimplemented r.primary then .next s
  else commitAfterWrite r.primary (genericWrite r.writeSet v (writeEffects r.primary v s))

/-- `MemWrite(a, 1, v)` (R60). -/
def memWrite (a v : Byte) (s : State) : Out := writeResolved (resolve a s) v s

/-! ### Program memory (R69) -/

/-- `ProgRead(addr)` (R69). -/
def progRead (addr : ProgAddr) (s : State) : Except FaultKind ProgWord :=
  match s.params.prog[addr.toNat]? with
  | some u => .ok (significantBits u)
  | none => .error (.pcOutOfRange addr)

/-- The program counter and PCL as the fetch leaves them (R101, R102): `pc <- A + 1`, PCL its low byte. -/
def advance (s : State) : State := mirrorPcl (lowByte (s.pc + 1#13)) (s.setPcNext (s.pc + 1#13))

/-! ### The return stack (R41 to R43) -/

/-- `STACK_DEPTH` (R8). -/
def stackDepth : Nat := Config.stackDepth

/-- `Push(v)` (R42). -/
def push (v : ProgAddr) (s : State) : Out :=
  if stackDepth ≤ s.stack.length then raise .stackOverflow s else .next (s.setStack (v :: s.stack))

/-- `Pop()` (R43), its value and the state after it handed to `k`. -/
def withPop (s : State) (k : ProgAddr → State → Out) : Out :=
  match s.stack with
  | [] => raise .stackUnderflow s
  | v :: rest => k v (s.setStack rest)

/-! ### Interrupts (60_exceptions.md §2 to §4) -/

/-- `IntPending()` (R156). -/
def intPending (s : State) : Bool :=
  let i := s.intcon
  i.getLsbD 7 &&
    (i.getLsbD 3 && i.getLsbD 0 || i.getLsbD 4 && i.getLsbD 1 || i.getLsbD 5 && i.getLsbD 2 ||
      i.getLsbD 6 && s.eecon1.getLsbD 4)

/-- The interrupt vector (R75). -/
def interruptVector : ProgAddr := Config.interruptVector

/-- `IntEntry()` (R159), the one exception of this hardware: push PC, clear GIE, go to the vector. -/
def intEntry (s : State) : Out := andThen (push s.pc s) fun t => .next (setPC interruptVector (clearIntconBit 7 t))

/-- The return from an interrupt (R147): pop the saved PC, set GIE, go there, two cycles. -/
def intReturn (s : State) : Out :=
  withPop s fun v t => .next (((setIntconBit 7 t).setPcNext v).setTwoCycle true)

/-! ### Reset (70_reset_and_hazards.md R187) -/

/-- `Reset()` (R187): every element but the EEPROM, `fault` and the parameters. The register file with nothing
listed reads `POWER_ON` everywhere. -/
def resetCore (s : State) : State :=
  { (State.powerOn s.params s.ee) with fault := s.fault, cycles := s.cycles }

end Sys2Proof.Machine
end

