-- ==== Sys2Proof/Machine/Flags.lean ====
section
/-! DEFINITION. The STATUS flags: where they stand (10_state.md R20), how the core writes them (20_memory.md
R68), and what addition, subtraction and the zero test give them (41_file_alu.md R113, R114). -/

namespace Sys2Proof.Machine

/-- The flags of STATUS that the core itself writes (R20). -/
inductive Flag where
  | c
  | dc
  | z
  | powerDown
  | timeOut
  deriving DecidableEq, Repr

/-- `n(X)`, the bit of STATUS a flag stands at (R20, R68). -/
def flagBit : Flag → Nat
  | .c => 0
  | .dc => 1
  | .z => 2
  | .powerDown => 3
  | .timeOut => 4

/-- `SetFlag(X, v)` (R68): both STATUS cells, no side effect. -/
def setFlag (x : Flag) (v : Bool) (s : State) : State := writeAliasedBit 0x03#8 (flagBit x) v s

/-- Z: 1 iff the 8-bit result is zero (R24). -/
def isZero (r : Byte) : Bool := r == 0#8

/-- C of `A + B` (R113): the 9-bit sum has bit 8 set. -/
def addCarry (a b : Byte) : Bool := decide (0xFF < a.toNat + b.toNat)

/-- DC of `A + B` (R113): the low nibbles sum past 0xF. -/
def addDigitCarry (a b : Byte) : Bool := decide (0xF < (a &&& 0x0F#8).toNat + (b &&& 0x0F#8).toNat)

/-- C of `A - B` (R114): 1 when no borrow occurs. -/
def subCarry (a b : Byte) : Bool := decide (b.toNat ≤ a.toNat)

/-- DC of `A - B` (R114): 1 when the low nibble does not borrow. -/
def subDigitCarry (a b : Byte) : Bool := decide ((b &&& 0x0F#8).toNat ≤ (a &&& 0x0F#8).toNat)

/-- Writes C, DC and Z, in the order of R115. -/
def setArithFlags (c dc z : Bool) (s : State) : State := setFlag .z z (setFlag .dc dc (setFlag .c c s))

/-- The flags of `A + B` (R113). -/
def setAddFlags (a b : Byte) (s : State) : State :=
  setArithFlags (addCarry a b) (addDigitCarry a b) (isZero (a + b)) s

/-- The flags of `A - B` (R114). -/
def setSubFlags (a b : Byte) (s : State) : State :=
  setArithFlags (subCarry a b) (subDigitCarry a b) (isZero (a - b)) s

/-- Z of a result, the other flags unchanged (R24). -/
def setZeroFlag (r : Byte) (s : State) : State := setFlag .z (isZero r) s

/-- TO and PD together, in the order of R150 and R151. -/
def setPowerFlags (timeOut powerDown : Bool) (s : State) : State :=
  setFlag .powerDown powerDown (setFlag .timeOut timeOut s)

end Sys2Proof.Machine
end

