-- ==== Sys2Proof/Machine/Operands.lean ====
section
/-! DEFINITION. The operand forms: a file register read through the resolver, the destination `d`
(41_file_alu.md R112), a bit of a file register (20_memory.md R67), a page address (46_control.md R142), and the
skip (40_step.md R109). -/

namespace Sys2Proof.Machine

/-- Reads the file operand once (R112) and runs `k` on its byte; a faulting read ends the instruction. -/
def withFile (f : FileAddr) (s : State) (k : Byte → Out) : Out :=
  match memRead (fileAddress f) s with
  | .ok a => k a
  | .error e => raise e s

/-- `MemWrite(f, 1, v)` for a file operand. -/
def writeFile (f : FileAddr) (v : Byte) (s : State) : Out := memWrite (fileAddress f) v s

/-- `Dest(d, f, r)` (R112). -/
def dest (d : Dest) (f : FileAddr) (r : Byte) (s : State) : Out :=
  match d with
  | .w => .next (s.setW r)
  | .f => writeFile f r s

/-- The shape of every instruction with a `d` bit (R112): read the operand, store `result`, then let `after` write
the flags; `after` gets the operand's byte. -/
def fileOp (f : FileAddr) (d : Dest) (s : State) (result : Byte → Byte) (after : Byte → State → State) : Out :=
  withFile f s fun a => andThen (dest d f (result a) s) fun t => .next (after a t)

/-- `ClearBit` and `SetBit` (R67): read-modify-write of bit `b`. -/
def modifyBit (f : FileAddr) (b : BitIndex) (v : Bool) (s : State) : Out :=
  withFile f s fun a => writeFile f (withBit a b.toNat v) s

/-- The skip (R109): one more word, and the second cycle. -/
def skip (s : State) : State := (s.setPcNext (s.pcNext + 1#13)).setTwoCycle true

/-- Skips when the condition holds. -/
def skipIf (c : Bool) (s : State) : State := if c then skip s else s

/-- The bit tests (43_bit_ops.md R128, R129): skip when bit `b` of the operand is `v`. -/
def testBit (f : FileAddr) (b : BitIndex) (v : Bool) (s : State) : Out :=
  withFile f s fun a => .next (skipIf (a.getLsbD b.toNat == v) s)

/-- `PCLATH[4:3] : k`, the target of GOTO and CALL (R142). -/
def pageTarget (k : PageAddr) (s : State) : ProgAddr := s.pclath.extractLsb' 3 2 ++ k

/-- Sets the next address and requests the second cycle, as every control transfer does (R110). -/
def jumpTo (v : ProgAddr) (s : State) : State := (s.setPcNext v).setTwoCycle true

end Sys2Proof.Machine
end

