-- ==== Sys2Proof/Machine/BitOps.lean ====
section
/-! DEFINITION. 43_bit_ops.md: BCF, BSF, BTFSC, BTFSS. -/

namespace Sys2Proof.Machine

/-- BCF (R126). -/
def execBcf (f : FileAddr) (b : BitIndex) (s : State) : Out := modifyBit f b false s

/-- BSF (R127). -/
def execBsf (f : FileAddr) (b : BitIndex) (s : State) : Out := modifyBit f b true s

/-- BTFSC (R128). -/
def execBtfsc (f : FileAddr) (b : BitIndex) (s : State) : Out := testBit f b false s

/-- BTFSS (R129). -/
def execBtfss (f : FileAddr) (b : BitIndex) (s : State) : Out := testBit f b true s

end Sys2Proof.Machine
end

