-- ==== Sys2Proof/Machine/Control.lean ====
section
/-! DEFINITION. 46_control.md: GOTO, CALL, RETURN, RETLW, RETFIE. -/

namespace Sys2Proof.Machine

/-- GOTO (R143). -/
def execGoto (k : PageAddr) (s : State) : Out := .next (jumpTo (pageTarget k s) s)

/-- CALL (R144): pushes the address after the CALL, then jumps; an overflow changes neither. -/
def execCall (k : PageAddr) (s : State) : Out := andThen (push (s.pc + 1#13) s) fun t => .next (jumpTo (pageTarget k t) t)

/-- RETURN (R145). -/
def execReturn (s : State) : Out := withPop s fun v t => .next (jumpTo v t)

/-- RETLW (R146): pops before it writes W. -/
def execRetlw (k : Byte) (s : State) : Out := withPop s fun v t => .next (jumpTo v (t.setW k))

/-- RETFIE (R147): the return from an interrupt. -/
def execRetfie (s : State) : Out := intReturn s

end Sys2Proof.Machine
end

