-- ==== Sys2Proof/Machine/FileAlu.lean ====
section
/-! DEFINITION. 41_file_alu.md: ADDWF, SUBWF, ANDWF, IORWF, XORWF, COMF, MOVF. -/

namespace Sys2Proof.Machine

/-- ADDWF (R115): `W + f`. -/
def execAddwf (f : FileAddr) (d : Dest) (s : State) : Out := fileOp f d s (fun a => s.w + a) (fun a => setAddFlags s.w a)

/-- SUBWF (R116): `f - W`. -/
def execSubwf (f : FileAddr) (d : Dest) (s : State) : Out := fileOp f d s (fun a => a - s.w) (fun a => setSubFlags a s.w)

/-- ANDWF (R117). -/
def execAndwf (f : FileAddr) (d : Dest) (s : State) : Out :=
  fileOp f d s (fun a => s.w &&& a) (fun a => setZeroFlag (s.w &&& a))

/-- IORWF (R118). -/
def execIorwf (f : FileAddr) (d : Dest) (s : State) : Out :=
  fileOp f d s (fun a => s.w ||| a) (fun a => setZeroFlag (s.w ||| a))

/-- XORWF (R119). -/
def execXorwf (f : FileAddr) (d : Dest) (s : State) : Out :=
  fileOp f d s (fun a => s.w ^^^ a) (fun a => setZeroFlag (s.w ^^^ a))

/-- COMF (R120): the one's complement; W is not read. -/
def execComf (f : FileAddr) (d : Dest) (s : State) : Out := fileOp f d s (fun a => ~~~a) (fun a => setZeroFlag (~~~a))

/-- MOVF (R121): with `d` = 1 the byte is written back with every side effect. -/
def execMovf (f : FileAddr) (d : Dest) (s : State) : Out := fileOp f d s (fun a => a) (fun a => setZeroFlag a)

end Sys2Proof.Machine
end

