-- ==== Sys2Proof/Machine/IncDecSkip.lean ====
section
/-! DEFINITION. 42_inc_dec_skip.md: INCF, DECF, INCFSZ, DECFSZ. -/

namespace Sys2Proof.Machine

/-- INCF (R122): Z only. -/
def execIncf (f : FileAddr) (d : Dest) (s : State) : Out := fileOp f d s (fun a => a + 1#8) (fun a => setZeroFlag (a + 1#8))

/-- DECF (R123): Z only. -/
def execDecf (f : FileAddr) (d : Dest) (s : State) : Out := fileOp f d s (fun a => a - 1#8) (fun a => setZeroFlag (a - 1#8))

/-- INCFSZ (R124): no flag; the skip comes after the store, so it adds to a PCL target. -/
def execIncfsz (f : FileAddr) (d : Dest) (s : State) : Out :=
  fileOp f d s (fun a => a + 1#8) (fun a => skipIf (isZero (a + 1#8)))

/-- DECFSZ (R125): no flag. -/
def execDecfsz (f : FileAddr) (d : Dest) (s : State) : Out :=
  fileOp f d s (fun a => a - 1#8) (fun a => skipIf (isZero (a - 1#8)))

end Sys2Proof.Machine
end

