-- ==== Sys2Proof/Machine/Literal.lean ====
section
/-! DEFINITION. 45_literal.md: ADDLW, SUBLW, ANDLW, IORLW, XORLW, MOVLW. They touch W and STATUS only. -/

namespace Sys2Proof.Machine

/-- ADDLW (R136): `W + k`. -/
def execAddlw (k : Byte) (s : State) : Out := .next (setAddFlags s.w k (s.setW (s.w + k)))

/-- SUBLW (R137): `k - W`. -/
def execSublw (k : Byte) (s : State) : Out := .next (setSubFlags k s.w (s.setW (k - s.w)))

/-- ANDLW (R138). -/
def execAndlw (k : Byte) (s : State) : Out := .next (setZeroFlag (s.w &&& k) (s.setW (s.w &&& k)))

/-- IORLW (R139). -/
def execIorlw (k : Byte) (s : State) : Out := .next (setZeroFlag (s.w ||| k) (s.setW (s.w ||| k)))

/-- XORLW (R140). -/
def execXorlw (k : Byte) (s : State) : Out := .next (setZeroFlag (s.w ^^^ k) (s.setW (s.w ^^^ k)))

/-- MOVLW (R141): no flag. -/
def execMovlw (k : Byte) (s : State) : Out := .next (s.setW k)

end Sys2Proof.Machine
end

