-- ==== Sys2Proof/Machine/Misc.lean ====
section
/-! DEFINITION. 47_misc.md: NOP, CLRWDT, SLEEP. -/

namespace Sys2Proof.Machine

/-- NOP (R149). -/
def execNop (s : State) : Out := .next s

/-- `cell[0x81] <- cell[0x81] & 0xF8` when `CLRWDT_CLEARS_PS` (R150). -/
def clearPrescalerRate (s : State) : State :=
  if s.params.clrwdtClearsPs then s.setCell 0x81#8 (s.optionReg &&& 0xF8#8) else s

/-- CLRWDT (R150). -/
def execClrwdt (s : State) : Out := .next (setPowerFlags true true (clearPrescalerRate (s.setWdtAcc 0)))

/-- SLEEP (R151): PC stays on the SLEEP instruction. -/
def execSleep (s : State) : Out :=
  .next ((setPowerFlags true false ((s.setSleeping true).setWdtAcc 0)).setPcNext s.pc)

end Sys2Proof.Machine
end

