-- ==== Sys2Proof/Machine/RotateMove.lean ====
section
/-! DEFINITION. 44_rotate_move.md: RLF, RRF, MOVWF, CLRF, CLRW, SWAPF. -/

namespace Sys2Proof.Machine

/-- `((a << 1) | C) & 0xFF` (R130). -/
def rotateLeft (a : Byte) (c : Bool) : Byte := a <<< 1 ||| (if c then 0x01#8 else 0x00#8)

/-- `(C << 7) | (a >> 1)` (R131). -/
def rotateRight (a : Byte) (c : Bool) : Byte := (if c then 0x80#8 else 0x00#8) ||| a >>> 1

/-- `(a[3:0] << 4) | a[7:4]` (R135). -/
def swapNibbles (a : Byte) : Byte := a.extractLsb' 0 4 ++ a.extractLsb' 4 4

/-- RLF (R130): C is the bit rotated in and receives bit 7. -/
def execRlf (f : FileAddr) (d : Dest) (s : State) : Out :=
  fileOp f d s (fun a => rotateLeft a s.carry) (fun a => setFlag .c (a.getLsbD 7))

/-- RRF (R131): C is the bit rotated in and receives bit 0. -/
def execRrf (f : FileAddr) (d : Dest) (s : State) : Out :=
  fileOp f d s (fun a => rotateRight a s.carry) (fun a => setFlag .c (a.getLsbD 0))

/-- MOVWF (R132). -/
def execMovwf (f : FileAddr) (s : State) : Out := writeFile f s.w s

/-- CLRF (R133): the store first, then Z = 1. -/
def execClrf (f : FileAddr) (s : State) : Out := andThen (writeFile f 0x00#8 s) fun t => .next (setFlag .z true t)

/-- CLRW (R134). -/
def execClrw (s : State) : Out := .next (setFlag .z true (s.setW 0x00#8))

/-- SWAPF (R135): no flag. -/
def execSwapf (f : FileAddr) (d : Dest) (s : State) : Out := fileOp f d s swapNibbles (fun _ t => t)

end Sys2Proof.Machine
end

