-- ==== Sys2Proof/Machine/Dispatch.lean ====
section
/-! DEFINITION. One arm per instruction (40_step.md R103): `exec` runs an instruction in the state the fetch
leaves. -/

namespace Sys2Proof.Machine

def exec (i : Instr) (s : State) : Host.Outcome State Fault Refusal :=
  match i with
  | .addwf f d => Sys2Proof.Machine.execAddwf f d s
  | .subwf f d => Sys2Proof.Machine.execSubwf f d s
  | .andwf f d => Sys2Proof.Machine.execAndwf f d s
  | .iorwf f d => Sys2Proof.Machine.execIorwf f d s
  | .xorwf f d => Sys2Proof.Machine.execXorwf f d s
  | .comf f d => Sys2Proof.Machine.execComf f d s
  | .movf f d => Sys2Proof.Machine.execMovf f d s
  | .incf f d => Sys2Proof.Machine.execIncf f d s
  | .decf f d => Sys2Proof.Machine.execDecf f d s
  | .incfsz f d => Sys2Proof.Machine.execIncfsz f d s
  | .decfsz f d => Sys2Proof.Machine.execDecfsz f d s
  | .bcf f b => Sys2Proof.Machine.execBcf f b s
  | .bsf f b => Sys2Proof.Machine.execBsf f b s
  | .btfsc f b => Sys2Proof.Machine.execBtfsc f b s
  | .btfss f b => Sys2Proof.Machine.execBtfss f b s
  | .rlf f d => Sys2Proof.Machine.execRlf f d s
  | .rrf f d => Sys2Proof.Machine.execRrf f d s
  | .movwf f => Sys2Proof.Machine.execMovwf f s
  | .clrf f => Sys2Proof.Machine.execClrf f s
  | .clrw => Sys2Proof.Machine.execClrw s
  | .swapf f d => Sys2Proof.Machine.execSwapf f d s
  | .addlw k => Sys2Proof.Machine.execAddlw k s
  | .sublw k => Sys2Proof.Machine.execSublw k s
  | .andlw k => Sys2Proof.Machine.execAndlw k s
  | .iorlw k => Sys2Proof.Machine.execIorlw k s
  | .xorlw k => Sys2Proof.Machine.execXorlw k s
  | .movlw k => Sys2Proof.Machine.execMovlw k s
  | .goto k => Sys2Proof.Machine.execGoto k s
  | .call k => Sys2Proof.Machine.execCall k s
  | .ret => Sys2Proof.Machine.execReturn s
  | .retlw k => Sys2Proof.Machine.execRetlw k s
  | .retfie => Sys2Proof.Machine.execRetfie s
  | .nop => Sys2Proof.Machine.execNop s
  | .clrwdt => Sys2Proof.Machine.execClrwdt s
  | .sleep => Sys2Proof.Machine.execSleep s

end Sys2Proof.Machine
end

