-- ==== Sys2Proof/Machine/Timers.lean ====
section
/-! DEFINITION. The timing subsystem (60_exceptions.md §6, §7): the Timer0 tick, the Watchdog tick, and one
machine cycle of both (40_step.md R98, R105). -/

namespace Sys2Proof.Machine

/-- `Tmr0Inc` (R171): a direct write, so no wait; the wrap to 0 sets T0IF. -/
def tmr0Inc (s : State) : State :=
  let t := s.cell 0x01#8 + 1#8
  let u := s.setCell 0x01#8 t
  if t = 0x00#8 then setIntconBit 2 u else u

/-- The Timer0 ratio with PSA = 0, `2^(PS+1)` (R167). -/
def timer0Ratio (opt : Byte) : Nat := 2 ^ (prescalerRate opt + 1)

/-- One prescaled tick (R167): increment, then compare with the ratio. -/
def prescaledTick (opt : Byte) (s : State) : State :=
  if timer0Ratio opt ≤ s.prescCount + 1 then tmr0Inc (s.setPrescCount 0) else s.setPrescCount (s.prescCount + 1)

/-- A tick in timer mode (R165): a pending wait (R166), else every tick (R168) or the prescaler (R167). -/
def timerModeTick (opt : Byte) (s : State) : State :=
  if 0 < s.tmr0Wait then s.setTmr0Wait (s.tmr0Wait - 1)
  else if opt.getLsbD 3 then tmr0Inc s
  else prescaledTick opt s

/-- The edge T0SE selects: 0 rising, 1 falling (R169). -/
def t0ckEdge (opt : Byte) (prev sample : Bool) : Bool :=
  if opt.getLsbD 4 then prev && !sample else !prev && sample

/-- A tick in counter mode (R169). -/
def counterModeTick (opt : Byte) (sample : Bool) (s : State) : State :=
  if t0ckEdge opt s.t0ckPrev sample then tmr0Inc s else s

/-- `Tmr0Tick()` (R165): the mode is T0CS, the sample PORTA bit 4, remembered at the end (R170). -/
def tmr0Tick (s : State) : State :=
  let opt := s.optionReg
  let sample := (s.cell 0x05#8).getLsbD 4
  let t := if opt.getLsbD 5 then counterModeTick opt sample s else timerModeTick opt s
  t.setT0ckPrev sample

/-- The Watchdog's postscaler ratio (R174): `2^PS` when PSA = 1, else 1. -/
def watchdogRatio (opt : Byte) : Nat := if opt.getLsbD 3 then 2 ^ prescalerRate opt else 1

/-- The Watchdog threshold (R174). -/
def watchdogThreshold (s : State) : Nat := s.params.wdtBaseCycles * watchdogRatio s.optionReg

/-- The Watchdog wake (R175). -/
def watchdogWake (s : State) : State := setPC (s.pc + 1#13) ((s.setSleeping false).setWdtAcc 0)

/-- The Watchdog reset (R176): a full reset, then PD = 0. -/
def watchdogReset (s : State) : State := setFlag .powerDown false (resetCore s)

/-- `WdtTick()` (R173): increment, then compare with the threshold. -/
def wdtTick (s : State) : State :=
  let t := s.setWdtAcc (s.wdtAcc + 1)
  if watchdogThreshold t ≤ t.wdtAcc then if t.sleeping then watchdogWake t else watchdogReset t else t

/-- One machine cycle: the Watchdog, then Timer0 unless the core sleeps after the Watchdog's tick (R98, R105). -/
def machineCycle (s : State) : State :=
  let t := wdtTick s
  if t.sleeping then t else tmr0Tick t

end Sys2Proof.Machine
end

