-- ==== Sys2Proof/Machine/Cycle.lean ====
section
/-! DEFINITION. The phases of `Step()` (40_step.md R95). -/

namespace Sys2Proof.Machine

/-- Phase 4 (R103): the instruction the word spells, or the implicit no-op of an unmatched word (R107). -/
def execWord (word : ProgWord) (s : State) : Out :=
  match decode word with
  | .ok i => exec i s
  | .error _ => .next s

/-- Phases 5 and 6 (R104, R105): `SetPC(pc)`, then the second machine cycle if it was requested. -/
def finishStep (s : State) : State :=
  let t := setPC s.pcNext s
  if t.twoCycle then ((machineCycle t).setTwoCycle false).setCycles 2 else t.setCycles 1

/-- Phases 3 to 6 (R100 to R105): fetch, execute, finish. -/
def runInstruction (s : State) : Out :=
  match progRead s.pc s with
  | .error e => raise e s
  | .ok word => andThen (execWord word (advance s)) fun t => .next (finishStep t)

/-- Phase 1 when an interrupt is taken (R97, R159): one cycle, no tick, no fetch. -/
def interruptStep (s : State) : Out := andThen (intEntry s) fun t => .next (t.setCycles 1)

/-- Phases 2 to 6 (R98, R99): the first machine cycle, which ends the step of a sleeping core. -/
def runningStep (s : State) : Out :=
  let t := machineCycle s
  if t.sleeping then .next (t.setCycles 1) else runInstruction t

/-- `Step()` (R95) of a core that has a program: a faulted core does nothing and returns 0 (R96). -/
def stepLoaded (s : State) : Out :=
  if s.fault.isSome then .next (s.setCycles 0)
  else if intPending s then interruptStep s
  else runningStep s

/-- `Step()`, refused without a program (93_implementation_defined.md U12; log 7). -/
def stepCore (s : State) : Out := if s.params.prog = [] then .refused .programNotLoaded else stepLoaded s

/-! ### Placing a word where the next step fetches it -/

/-- The program with the word `u` at index `n`, extended by zero words where it is shorter. -/
def placeWord : List StoredWord → Nat → StoredWord → List StoredWord
  | [], 0, u => [u]
  | [], n + 1, u => 0 :: placeWord [] n u
  | _ :: l, 0, u => u :: l
  | x :: l, n + 1, u => x :: placeWord l n u

/-- Clears what would keep the next step from fetching: a fault, sleep, a pending interrupt, a Watchdog timeout due
at its tick (log 11). A state where none of these holds is unchanged. -/
def readyToFetch (s : State) : State :=
  let s := { s with fault := none, sleeping := false }
  let s := if intPending s then clearIntconBit 7 s else s
  if watchdogThreshold s ≤ s.wdtAcc + 1 then s.setWdtAcc 0 else s

end Sys2Proof.Machine
end

