-- ==== Sys2Proof/Machine/Step.lean ====
section
/-! DEFINITION. `Step()` (40_step.md R95), and the placing of a word where it fetches. -/

namespace Sys2Proof.Machine

/-- `Step()`. -/
def step (s : State) : Host.Outcome State Fault Refusal := stepCore s

/-- The state with the word `w` of `nbits` bits stored at the program counter, so that the next step fetches and
runs it (log 8, log 11). -/
def State.withFetchWord (s : State) (nbits w : Nat) : State :=
  (readyToFetch s).loadProgram (placeWord s.params.prog s.pc.toNat (BitVec.ofNat 16 (w % 2 ^ nbits)))

end Sys2Proof.Machine
end

