-- ==== Sys2Proof/Machine/HostActs.lean ====
section
/-! DEFINITION. What the host may do to the machine between steps (60_exceptions.md R182 to R185). -/

namespace Sys2Proof.Machine

/-- The two ports a host may write (R183). -/
inductive Port where
  | a
  | b
  deriving DecidableEq, Repr

/-- The physical cell of a port (R183). -/
def portCell : Port → Byte
  | .a => 0x05#8
  | .b => 0x06#8

/-- `HostPortWrite(p, b, v)` (R183): the physical cell, whatever RP0 is, with PORTB's side effects. -/
def hostPortWrite (p : Port) (b : BitIndex) (v : Bool) (s : State) : State :=
  let old := s.cell (portCell p)
  let new := withBit old b.toNat v
  (portbWriteEffect (portCell p) new s).setCell (portCell p) new

/-- What happens to the machine, one event at a time: host actions and steps are totally ordered (R182).
Observation (R184) is reading a field and is no event. -/
inductive Event where
  /-- `Step()`. -/
  | step
  /-- The host's `Reset()`. -/
  | reset
  /-- The host's port write. -/
  | port (p : Port) (b : BitIndex) (v : Bool)
  deriving DecidableEq, Repr

/-- One event. -/
def applyEvent (e : Event) (s : State) : Out :=
  match e with
  | .step => step s
  | .reset => .next (resetCore s)
  | .port p b v => .next (hostPortWrite p b v s)

/-- A sequence of events, ended by the first stop. -/
def runEvents : List Event → State → Out
  | [], s => .next s
  | e :: es, s => andThen (applyEvent e s) (runEvents es)

end Sys2Proof.Machine
end

