-- ==== Sys2Proof/Safety.lean ====
section
/-! DEFINITION. The words the statements use: the invariant of the machine between steps, what a state may differ
from another in, and which part of the state each instruction may write. Written from the spec's rules, not from
the meanings. -/

namespace Sys2Proof.Machine

/-! ### The invariant between steps -/

/-- What holds of the core between steps. -/
structure State.Inv (s : State) : Prop where
  /-- The register file's list is in canonical form. -/
  cellsWf : Memory.wf .registerFile s.cells
  /-- The EEPROM's list is in canonical form, every index below 64 (R38). -/
  eeWf : Memory.wf .eeprom s.ee
  /-- The two cells of every bank-aliased register agree (R55). -/
  aliasSync : ∀ lo : FileAddr, isAliased lo = true → s.cell (fileAddress lo) = s.cell (fileAddress lo ||| 0x80#8)
  /-- Unimplemented cells stay 0 (R19). -/
  unimplementedZero : ∀ p : Byte, isUnimplemented p = true → s.cell p = 0#8
  /-- The stack holds at most 13 entries (R41). -/
  stackBound : s.stack.length ≤ 13
  /-- `presc_count` is 0 to 255 (R46). -/
  prescBound : s.prescCount ≤ 255
  /-- `tmr0_wait` is 0 to 2 (R47). -/
  waitBound : s.tmr0Wait ≤ 2
  /-- `two_cycle` is 0 between steps (R45). -/
  oneCycle : s.twoCycle = false
  /-- PCL is the low byte of PC between steps (R104). -/
  pclMirror : s.cell 0x02#8 = lowByte s.pc
  /-- The model's convention for `pcNext` between steps (log 5). -/
  pcNextEq : s.pcNext = s.pc
  /-- `Step()` returns 0, 1 or 2 (R95). -/
  cyclesBound : s.cycles ≤ 2

/-! ### How one state differs from another -/

/-- C, DC and Z as the low bits of a byte (R20). -/
def flagsByte (c dc z : Bool) : Byte :=
  (if c then 0x01#8 else 0x00#8) ||| (if dc then 0x02#8 else 0x00#8) ||| (if z then 0x04#8 else 0x00#8)

/-- `t` is `s` but for the STATUS bits of `mask`, which are those of `val` in both STATUS cells. -/
def StatusOnly (mask val : Byte) (s t : State) : Prop :=
  t = s.setCells t.cells ∧
  ∀ q, t.cell q = if q = 0x03#8 ∨ q = 0x83#8 then (s.cell q &&& ~~~mask) ||| (val &&& mask) else s.cell q

/-- `t` is `s` with PC and its PCL mirror at `v` (R104). -/
def MovedTo (v : ProgAddr) (s t : State) : Prop :=
  t = ((s.setPcRaw v).setPcNext v).setCells t.cells ∧
  ∀ q, t.cell q = if q = 0x02#8 ∨ q = 0x82#8 then BitVec.ofNat 8 v.toNat else s.cell q

/-- `t` is `s` with TMR0 one higher and, on the wrap from 0xFF, T0IF set in both INTCON cells (R171). -/
def Tmr0Counted (s t : State) : Prop :=
  t = s.setCells t.cells ∧
  ∀ q, t.cell q =
    if q = 0x01#8 then BitVec.ofNat 8 ((s.cell 0x01#8).toNat + 1)
    else if (q = 0x0B#8 ∨ q = 0x8B#8) ∧ s.cell 0x01#8 = 0xFF#8 then s.cell q ||| 0x04#8
    else s.cell q

/-- The power-on value of a cell, from the table of R189. -/
def powerOnByte (q : Byte) : Byte :=
  if q = 0x03#8 ∨ q = 0x83#8 then 0x18#8 else if q = 0x81#8 ∨ q = 0x86#8 then 0xFF#8
  else if q = 0x85#8 then 0x1F#8 else 0x00#8

/-- The state a fault of kind `k` leaves when it is raised in `s` (R152). -/
def faultedAt (k : FaultKind) (s : State) : State := (s.setFault k).setCycles 0

/-! ### File operands -/

/-- The primary cell of a file operand. -/
def primaryOf (f : FileAddr) (s : State) : Byte := (resolve (fileAddress f) s).primary

/-- No memory fault can come from operand `f`: EEADR is in range wherever it would be used (R59, R66). -/
def FileOperandOk (f : FileAddr) (s : State) : Prop :=
  (primaryOf f s = 0x08#8 → (s.cell 0x88#8).getLsbD 0 = true → (s.cell 0x09#8).toNat < 64) ∧
  (primaryOf f s = 0x88#8 → (s.cell 0x09#8).toNat < 64)

/-- The destination of an instruction with a `d` bit received `r` (R112): W, or the file register with every side
effect of the write. -/
def Stored (d : Dest) (f : FileAddr) (r : Byte) (s u : State) : Prop :=
  match d with
  | .w => u = s.setW r
  | .f => memWrite (fileAddress f) r s = .next u

/-- An instruction with a `d` bit reads its operand `a`, stores `r` and then writes the STATUS bits of `mask` as
`val` gives them (R112). -/
def FileResult (i : FileAddr → Dest → Instr) (r : State → Byte → Byte) (mask : Byte) (val : State → Byte → Byte) :
    Prop :=
  ∀ (s : State) (f : FileAddr) (d : Dest) (a : Byte) (u : State),
    memRead (fileAddress f) s = .ok a → Stored d f (r s a) s u →
    ∃ t, exec (i f d) s = .next t ∧ StatusOnly mask (val s a) u t

/-- STATUS.C of a state, as a number. -/
def carryIn (s : State) : Nat := ((s.cell 0x03#8).getLsbD 0).toNat

/-- The Watchdog's limit in machine cycles (R174). -/
def watchdogLimit (s : State) : Nat :=
  s.params.wdtBaseCycles * (if (s.cell 0x81#8).getLsbD 3 then 2 ^ ((s.cell 0x81#8).toNat % 8) else 1)

/-! ### What an instruction names and writes -/

/-- The file operand of an instruction that has one. -/
def fileOperand : Instr → Option FileAddr
  | .addwf f _ | .subwf f _ | .andwf f _ | .iorwf f _ | .xorwf f _ | .comf f _ | .movf f _ => some f
  | .incf f _ | .decf f _ | .incfsz f _ | .decfsz f _ => some f
  | .bcf f _ | .bsf f _ | .btfsc f _ | .btfss f _ => some f
  | .rlf f _ | .rrf f _ | .movwf f | .clrf f | .swapf f _ => some f
  | .clrw | .addlw _ | .sublw _ | .andlw _ | .iorlw _ | .xorlw _ | .movlw _ => none
  | .goto _ | .call _ | .ret | .retlw _ | .retfie | .nop | .clrwdt | .sleep => none

/-- The file operand an instruction stores to: `d` = 1, MOVWF, CLRF, BCF, BSF. -/
def storesTo : Instr → Option FileAddr
  | .addwf f .f | .subwf f .f | .andwf f .f | .iorwf f .f | .xorwf f .f | .comf f .f | .movf f .f => some f
  | .incf f .f | .decf f .f | .incfsz f .f | .decfsz f .f => some f
  | .rlf f .f | .rrf f .f | .swapf f .f => some f
  | .movwf f | .clrf f | .bcf f _ | .bsf f _ => some f
  | .addwf _ .w | .subwf _ .w | .andwf _ .w | .iorwf _ .w | .xorwf _ .w | .comf _ .w | .movf _ .w => none
  | .incf _ .w | .decf _ .w | .incfsz _ .w | .decfsz _ .w => none
  | .rlf _ .w | .rrf _ .w | .swapf _ .w => none
  | .btfsc _ _ | .btfss _ _ | .clrw => none
  | .addlw _ | .sublw _ | .andlw _ | .iorlw _ | .xorlw _ | .movlw _ => none
  | .goto _ | .call _ | .ret | .retlw _ | .retfie | .nop | .clrwdt | .sleep => none

/-- The byte an instruction stores to its file operand, from the operand's byte `a` where it reads one (R67, R113 to
R135); 0 for the instructions that have no file destination, where nothing uses it. -/
def storedByte (i : Instr) (s : State) (a : Byte) : Byte :=
  match i with
  | .addwf _ _ => BitVec.ofNat 8 (s.w.toNat + a.toNat)
  | .subwf _ _ => BitVec.ofNat 8 (256 + a.toNat - s.w.toNat)
  | .andwf _ _ => s.w &&& a
  | .iorwf _ _ => s.w ||| a
  | .xorwf _ _ => s.w ^^^ a
  | .comf _ _ => BitVec.ofNat 8 (255 - a.toNat)
  | .movf _ _ => a
  | .incf _ _ | .incfsz _ _ => BitVec.ofNat 8 (a.toNat + 1)
  | .decf _ _ | .decfsz _ _ => BitVec.ofNat 8 (a.toNat + 255)
  | .bcf _ b => a &&& ~~~(1#8 <<< b.toNat)
  | .bsf _ b => a ||| (1#8 <<< b.toNat)
  | .rlf _ _ => BitVec.ofNat 8 (2 * a.toNat + carryIn s)
  | .rrf _ _ => BitVec.ofNat 8 (a.toNat / 2 + 128 * carryIn s)
  | .swapf _ _ => BitVec.ofNat 8 (a.toNat % 16 * 16 + a.toNat / 16)
  | .movwf _ => s.w
  | .clrf _ => 0x00#8
  | .btfsc _ _ | .btfss _ _ | .clrw => 0x00#8
  | .addlw _ | .sublw _ | .andlw _ | .iorlw _ | .xorlw _ | .movlw _ => 0x00#8
  | .goto _ | .call _ | .ret | .retlw _ | .retfie | .nop | .clrwdt | .sleep => 0x00#8

/-- The byte `a` an instruction works on is its operand's, where it reads one: MOVWF and CLRF store without reading. -/
def OperandByte (i : Instr) (f : FileAddr) (s : State) (a : Byte) : Prop :=
  i = .movwf f ∨ i = .clrf f ∨ memRead (fileAddress f) s = .ok a

/-- The cells an instruction's store goes to, as the resolver gives them. -/
def storedCells (i : Instr) (s : State) : List Byte :=
  match storesTo i with
  | some f => (resolve (fileAddress f) s).writeSet
  | none => []

/-- The primary cell of an instruction's store. -/
def storedPrimary (i : Instr) (s : State) : Option Byte := (storesTo i).map fun f => primaryOf f s

/-- The STATUS flags an instruction defines, as a mask (R22 to R25). -/
def flagMask : Instr → Byte
  | .addwf _ _ | .subwf _ _ | .addlw _ | .sublw _ => 0x07#8
  | .andwf _ _ | .iorwf _ _ | .xorwf _ _ | .comf _ _ | .movf _ _ | .incf _ _ | .decf _ _ => 0x04#8
  | .clrf _ | .clrw | .andlw _ | .iorlw _ | .xorlw _ => 0x04#8
  | .rlf _ _ | .rrf _ _ => 0x01#8
  | .clrwdt | .sleep => 0x18#8
  | .incfsz _ _ | .decfsz _ _ | .swapf _ _ | .movwf _ | .movlw _ => 0x00#8
  | .bcf _ _ | .bsf _ _ | .btfsc _ _ | .btfss _ _ => 0x00#8
  | .goto _ | .call _ | .ret | .retlw _ | .retfie | .nop => 0x00#8

/-- The bits of a cell an instruction writes beside its store: its flags in STATUS; GIE by RETFIE (R147), INTF and
RBIF by a store to PORTB (R64), in INTCON; PS by CLRWDT where the parameter says so, in OPTION_REG (R150). -/
def ownBits (i : Instr) (s : State) (q : Byte) : Byte :=
  if q = 0x03#8 ∨ q = 0x83#8 then flagMask i
  else if q = 0x0B#8 ∨ q = 0x8B#8 then
    if i = .retfie then 0x80#8 else if storedPrimary i s = some 0x06#8 then 0x03#8 else 0x00#8
  else if q = 0x81#8 ∧ i = .clrwdt ∧ s.params.clrwdtClearsPs = true then 0x07#8
  else 0x00#8

/-- The instructions that write W: `d` = 0, CLRW, the literal instructions, RETLW (R15). -/
def writesW : Instr → Bool
  | .addwf _ .w | .subwf _ .w | .andwf _ .w | .iorwf _ .w | .xorwf _ .w | .comf _ .w | .movf _ .w => true
  | .incf _ .w | .decf _ .w | .incfsz _ .w | .decfsz _ .w => true
  | .rlf _ .w | .rrf _ .w | .swapf _ .w | .clrw => true
  | .addlw _ | .sublw _ | .andlw _ | .iorlw _ | .xorlw _ | .movlw _ | .retlw _ => true
  | .addwf _ .f | .subwf _ .f | .andwf _ .f | .iorwf _ .f | .xorwf _ .f | .comf _ .f | .movf _ .f => false
  | .incf _ .f | .decf _ .f | .incfsz _ .f | .decfsz _ .f => false
  | .rlf _ .f | .rrf _ .f | .swapf _ .f => false
  | .movwf _ | .clrf _ | .bcf _ _ | .bsf _ _ | .btfsc _ _ | .btfss _ _ => false
  | .goto _ | .call _ | .ret | .retfie | .nop | .clrwdt | .sleep => false

/-- The instructions that change the return stack (R53). -/
def usesStack : Instr → Bool
  | .call _ | .ret | .retlw _ | .retfie => true
  | .addwf _ _ | .subwf _ _ | .andwf _ _ | .iorwf _ _ | .xorwf _ _ | .comf _ _ | .movf _ _ => false
  | .incf _ _ | .decf _ _ | .incfsz _ _ | .decfsz _ _ => false
  | .bcf _ _ | .bsf _ _ | .btfsc _ _ | .btfss _ _ => false
  | .rlf _ _ | .rrf _ _ | .movwf _ | .clrf _ | .clrw | .swapf _ _ => false
  | .addlw _ | .sublw _ | .andlw _ | .iorlw _ | .xorlw _ | .movlw _ => false
  | .goto _ | .nop | .clrwdt | .sleep => false

/-- The instructions that set `two_cycle` (R110): the control transfers always, INCFSZ, DECFSZ, BTFSC and BTFSS
when they skip. -/
def RequestsSecondCycle (i : Instr) (s : State) : Prop :=
  match i with
  | .goto _ | .call _ | .ret | .retlw _ | .retfie => True
  | .incfsz f _ => memRead (fileAddress f) s = .ok 0xFF#8
  | .decfsz f _ => memRead (fileAddress f) s = .ok 0x01#8
  | .btfsc f b => ∃ a, memRead (fileAddress f) s = .ok a ∧ a.getLsbD b.toNat = false
  | .btfss f b => ∃ a, memRead (fileAddress f) s = .ok a ∧ a.getLsbD b.toNat = true
  | .addwf _ _ | .subwf _ _ | .andwf _ _ | .iorwf _ _ | .xorwf _ _ | .comf _ _ | .movf _ _ => False
  | .incf _ _ | .decf _ _ | .bcf _ _ | .bsf _ _ => False
  | .rlf _ _ | .rrf _ _ | .movwf _ | .clrf _ | .clrw | .swapf _ _ => False
  | .addlw _ | .sublw _ | .andlw _ | .iorlw _ | .xorlw _ | .movlw _ => False
  | .nop | .clrwdt | .sleep => False

/-! ### A step that runs an instruction -/

/-- The core has a program, no fault, no pending interrupt, and is awake after the step's first machine cycle, with
`w` the low 14 bits of the word stored at PC then (R69, R95 phases 1 to 3, R100). -/
structure Fetches (s : State) (w : ProgWord) : Prop where
  loaded : s.params.prog ≠ []
  noFault : s.fault = none
  noInterrupt : intPending s = false
  awake : (machineCycle s).sleeping = false
  fetched : ∃ u, s.params.prog[(machineCycle s).pc.toNat]? = some u ∧ w = BitVec.ofNat 14 u.toNat

end Sys2Proof.Machine
end

