-- ==== Sys2Proof/Certificates/Slice0/Obligations.lean ====
section
/-! DEFINITION. The statements for the provers: what the rules of the spec say the machine does. -/

open Sys2Proof Sys2Proof.Machine

/-! ### Encoding (30_encoding.md) -/

/-- Decoding the word of an instruction gives the instruction back, with every operand at every value (R84 to R87). -/
def Obligations.DecodeEncodeRoundTrip : Prop := ∀ i : Instr, decode (encode i) = .ok i

/-- A word decodes to `i` exactly when, its don't-care bits cleared, it is the word of `i` (R87, R88): every spelling,
and no other word. -/
def Obligations.SpellingsAreDontCareVariants : Prop :=
  ∀ (w : ProgWord) (i : Instr), decode w = .ok i ↔ w &&& ~~~dontCareBits i = encode i

/-- The words that match no row are the seven ranges of R89. -/
def Obligations.UnmatchedWordsAreTheSevenRanges : Prop :=
  ∀ w : ProgWord, (∃ e, decode w = .error e) ↔
    (0x0001 ≤ w.toNat ∧ w.toNat ≤ 0x0007) ∨ (0x000A ≤ w.toNat ∧ w.toNat ≤ 0x001F) ∨
    (0x0021 ≤ w.toNat ∧ w.toNat ≤ 0x003F) ∨ (0x0041 ≤ w.toNat ∧ w.toNat ≤ 0x005F) ∨
    (0x0061 ≤ w.toNat ∧ w.toNat ≤ 0x0062) ∨ (0x0065 ≤ w.toNat ∧ w.toNat ≤ 0x007F) ∨
    (0x3B00 ≤ w.toNat ∧ w.toNat ≤ 0x3BFF)

/-- Words written out from the spec's own encodings and examples, one per family, decode to what they stand for. -/
def Obligations.SampleWordsDecode : Prop :=
  decode 0x07A0 = .ok (.addwf 0x20 .f) ∧ decode 0x0B20 = .ok (.decfsz 0x20 .w) ∧
  decode 0x1E05 = .ok (.btfss 0x05 4) ∧ decode 0x00A0 = .ok (.movwf 0x20) ∧
  decode 0x3C10 = .ok (.sublw 0x10) ∧ decode 0x2800 = .ok (.goto 0) ∧
  decode 0x0064 = .ok .clrwdt

/-! ### The register file and the EEPROM (20_memory.md) -/

/-- The bank resolver on a direct address (R54 to R56): the aliased class has both cells, a bank-private address the one
cell that RP0 selects. -/
def Obligations.ResolveDirectAddress : Prop :=
  ∀ (s : State) (f : FileAddr), f ≠ 0#7 →
    ((f = 2#7 ∨ f = 3#7 ∨ f = 4#7 ∨ 0x0A ≤ f.toNat) →
      resolve (fileAddress f) s =
        ⟨BitVec.ofNat 8 f.toNat, [BitVec.ofNat 8 f.toNat, BitVec.ofNat 8 (f.toNat + 128)]⟩) ∧
    ((f = 1#7 ∨ (5 ≤ f.toNat ∧ f.toNat ≤ 9)) →
      resolve (fileAddress f) s =
        ⟨BitVec.ofNat 8 (f.toNat + 128 * ((s.cell 0x03#8).getLsbD 5).toNat),
          [BitVec.ofNat 8 (f.toNat + 128 * ((s.cell 0x03#8).getLsbD 5).toNat)]⟩)

/-- Indirect addressing (R57): INDF names `FSR | (IRP << 7)`, redirected once; an address whose low seven bits are then 0
reaches an unimplemented cell, a bank-private one is also ORed with RP0 (R56). -/
def Obligations.ResolveIndirectOnce : Prop :=
  ∀ (s : State) (x : Byte), x = s.cell 0x04#8 ||| (if (s.cell 0x03#8).getLsbD 7 then 0x80#8 else 0x00#8) →
    ((x.toNat % 128 = 2 ∨ x.toNat % 128 = 3 ∨ x.toNat % 128 = 4 ∨ 0x0A ≤ x.toNat % 128) →
      resolve (fileAddress 0#7) s =
        ⟨BitVec.ofNat 8 (x.toNat % 128), [BitVec.ofNat 8 (x.toNat % 128), BitVec.ofNat 8 (x.toNat % 128 + 128)]⟩) ∧
    ((x.toNat % 128 = 0 ∨ x.toNat % 128 = 1 ∨ (5 ≤ x.toNat % 128 ∧ x.toNat % 128 ≤ 9)) →
      ∃ p : Byte, resolve (fileAddress 0#7) s = ⟨p, [p]⟩ ∧ p.toNat % 128 = x.toNat % 128 ∧
        p.getLsbD 7 = (x.getLsbD 7 || (s.cell 0x03#8).getLsbD 5)) ∧
    (x.toNat % 128 = 0 → memRead (fileAddress 0#7) s = .ok 0x00#8 ∧
      ∀ v, memWrite (fileAddress 0#7) v s = .next s)

/-- What a read gives (R58, R59): 0 for an unimplemented cell, the EEPROM byte or 0 for EEDATA, a fault for an EEADR out
of range while RD = 1, and the primary cell's byte otherwise. -/
def Obligations.ReadGivesThePrimaryCell : Prop :=
  ∀ (s : State) (a p : Byte), p = (resolve a s).primary →
    (isUnimplemented p = true → memRead a s = .ok 0x00#8) ∧
    (isUnimplemented p = false → p ≠ 0x08#8 → memRead a s = .ok (s.cell p)) ∧
    (p = 0x08#8 → (s.cell 0x88#8).getLsbD 0 = false → memRead a s = .ok 0x00#8) ∧
    (p = 0x08#8 → (s.cell 0x88#8).getLsbD 0 = true → (s.cell 0x09#8).toNat < 64 →
      memRead a s = .ok (s.eeByte (s.cell 0x09#8))) ∧
    (p = 0x08#8 → (s.cell 0x88#8).getLsbD 0 = true → 64 ≤ (s.cell 0x09#8).toNat →
      memRead a s = .error (.eepromAddressOutOfRange (s.cell 0x09#8)))

/-- The unimplemented cells are those of R19 and no other. -/
def Obligations.UnimplementedCellsAreThoseListed : Prop :=
  ∀ p : Byte, isUnimplemented p = true ↔
    p = 0x00#8 ∨ p = 0x80#8 ∨ p = 0x07#8 ∨ p = 0x87#8 ∨
    (0x50 ≤ p.toNat ∧ p.toNat ≤ 0x7F) ∨ (0xD0 ≤ p.toNat ∧ p.toNat ≤ 0xFF)

/-- What a write that completes does (R60 to R66), to every cell, every EEPROM byte and every other element: an
unimplemented cell ignores it; else the primary cell, and for a bank-aliased register its bank-1 copy, receives the byte,
with the side effects of TMR0, PCL, PORTB and EECON1, and nothing else changes. -/
def Obligations.WriteEffectOnEveryCell : Prop :=
  ∀ (s t : State) (a v p : Byte), p = (resolve a s).primary → memWrite a v s = .next t →
    (isUnimplemented p = true → t = s) ∧
    (isUnimplemented p = false →
      t = (((s.setCells t.cells).setEe t.ee).setPcNext t.pcNext).setTmr0Wait t.tmr0Wait ∧
      (p = 0x02#8 → t.pcNext.toNat = ((s.cell 0x0A#8).toNat % 32) * 256 + v.toNat) ∧
      (p ≠ 0x02#8 → t.pcNext = s.pcNext) ∧
      t.tmr0Wait = (if p = 0x01#8 ∧ (s.cell 0x81#8).getLsbD 5 = false then 2 else s.tmr0Wait) ∧
      (∀ q, t.cell q =
        if q = p ∨ ((p = 0x02#8 ∨ p = 0x03#8 ∨ p = 0x04#8 ∨ 0x0A ≤ p.toNat % 128) ∧ q = p ||| 0x80#8) then
          (if p = 0x88#8 ∧ v.getLsbD 1 = true ∧ v.getLsbD 2 = true then (v &&& 0xFD#8) ||| 0x10#8 else v)
        else if p = 0x06#8 ∧ (q = 0x0B#8 ∨ q = 0x8B#8) then
          (if ((s.cell 0x81#8).getLsbD 6 = true ∧ (s.cell 0x06#8).getLsbD 0 = false ∧ v.getLsbD 0 = true) ∨
              ((s.cell 0x81#8).getLsbD 6 = false ∧ (s.cell 0x06#8).getLsbD 0 = true ∧ v.getLsbD 0 = false)
            then s.cell q ||| 0x02#8
           else if (s.cell 0x06#8 ^^^ v) &&& 0xF0#8 &&& s.cell 0x86#8 ≠ 0#8 then s.cell q ||| 0x01#8
           else s.cell q)
        else s.cell q) ∧
      (∀ j, t.eeByte j =
        if p = 0x88#8 ∧ v.getLsbD 1 = true ∧ v.getLsbD 2 = true ∧ j = s.cell 0x09#8 then s.cell 0x08#8
        else s.eeByte j))

/-- A write completes, or it is a commit with EEADR out of range (R66, R70): that one faults after the generic write.
The form of the fault is the model's (log 6). -/
def Obligations.WriteFaultsOnlyOnCommitOutOfRange : Prop :=
  ∀ (s : State) (a v p : Byte), p = (resolve a s).primary →
    (¬(p = 0x88#8 ∧ v.getLsbD 1 = true ∧ v.getLsbD 2 = true ∧ 64 ≤ (s.cell 0x09#8).toNat) →
      ∃ t, memWrite a v s = .next t) ∧
    (p = 0x88#8 → v.getLsbD 1 = true → v.getLsbD 2 = true → 64 ≤ (s.cell 0x09#8).toNat →
      memWrite a v s =
        .fault (.eepromAddressOutOfRange (s.cell 0x09#8)
          (faultedAt (.eepromAddressOutOfRange (s.cell 0x09#8)) (s.setCell 0x88#8 v))))

/-- A general purpose register is one register in both banks (R18, R55): a byte written at `f` is read back at `f`, with the
bank-select bit set or cleared afterwards, at `f` with bit 7 set, and through INDF once FSR holds either address (R57). -/
def Obligations.GprIsSharedByTheBanks : Prop :=
  ∀ (s : State) (f : FileAddr) (v : Byte), 0x0C ≤ f.toNat → f.toNat ≤ 0x4F →
    ∃ t, memWrite (fileAddress f) v s = .next t ∧ memRead (fileAddress f) t = .ok v ∧
      memRead (fileAddress f ||| 0x80#8) t = .ok v ∧
      (∃ u, exec (.bsf 3#7 5#3) t = .next u ∧ (u.cell 0x03#8).getLsbD 5 = true ∧ memRead (fileAddress f) u = .ok v) ∧
      (∃ u, exec (.bcf 3#7 5#3) t = .next u ∧ (u.cell 0x03#8).getLsbD 5 = false ∧ memRead (fileAddress f) u = .ok v) ∧
      ∀ x, x = fileAddress f ∨ x = fileAddress f ||| 0x80#8 →
        ∃ u, memWrite (fileAddress 4#7) x t = .next u ∧ u.cell 0x04#8 = x ∧ memRead (fileAddress 0#7) u = .ok v

/-- A byte committed to the EEPROM is what EEDATA reads while RD = 1, at the same EEADR (R59, R66). -/
def Obligations.CommittedByteReadsBack : Prop :=
  ∀ (s t u : State) (a b v : Byte),
    memWrite a v s = .next t → (resolve a s).primary = 0x88#8 → v.getLsbD 1 = true → v.getLsbD 2 = true →
    u.ee = t.ee → u.cell 0x09#8 = s.cell 0x09#8 → (u.cell 0x88#8).getLsbD 0 = true →
    (resolve b u).primary = 0x08#8 →
    memRead b u = .ok (s.cell 0x08#8)

/-! ### The instructions with a file operand (41_file_alu.md to 44_rotate_move.md) -/

/-- Where no EEPROM index is out of range, a file operand is read and a destination written (R59, R66, R112). -/
def Obligations.FileOperandsReadAndStore : Prop :=
  ∀ (s : State) (f : FileAddr) (d : Dest) (r : Byte), FileOperandOk f s →
    (∃ a, memRead (fileAddress f) s = .ok a) ∧ ∃ u, Stored d f r s u

/-- Every instruction with a file operand completes where no EEPROM index is out of range: ADDWF, SUBWF, ANDWF, IORWF,
XORWF, COMF, MOVF, INCF, DECF, INCFSZ, DECFSZ, BCF, BSF, BTFSC, BTFSS, RLF, RRF, MOVWF, CLRF, SWAPF ("memory faults
only", R115 to R135). -/
def Obligations.FileInstructionsComplete : Prop :=
  ∀ (s : State) (i : Instr) (f : FileAddr), fileOperand i = some f → FileOperandOk f s → ∃ t, exec i s = .next t

/-- The addition law of R113 for ADDWF and ADDLW and the subtraction law of R114 for SUBWF and SUBLW: the result, C, DC and
Z, for both destinations, and nothing else changed. -/
def Obligations.AdditionAndSubtractionLaws : Prop :=
  FileResult .addwf (fun s a => BitVec.ofNat 8 (s.w.toNat + a.toNat)) 0x07#8
    (fun s a => flagsByte (decide (0xFF < s.w.toNat + a.toNat)) (decide (0xF < s.w.toNat % 16 + a.toNat % 16))
      (decide ((s.w.toNat + a.toNat) % 256 = 0))) ∧
  FileResult .subwf (fun s a => BitVec.ofNat 8 (256 + a.toNat - s.w.toNat)) 0x07#8
    (fun s a => flagsByte (decide (s.w.toNat ≤ a.toNat)) (decide (s.w.toNat % 16 ≤ a.toNat % 16))
      (decide (a.toNat = s.w.toNat))) ∧
  (∀ (s : State) (k : Byte), ∃ t, exec (.addlw k) s = .next t ∧
    StatusOnly 0x07#8
      (flagsByte (decide (0xFF < s.w.toNat + k.toNat)) (decide (0xF < s.w.toNat % 16 + k.toNat % 16))
        (decide ((s.w.toNat + k.toNat) % 256 = 0)))
      (s.setW (BitVec.ofNat 8 (s.w.toNat + k.toNat))) t) ∧
  (∀ (s : State) (k : Byte), ∃ t, exec (.sublw k) s = .next t ∧
    StatusOnly 0x07#8
      (flagsByte (decide (s.w.toNat ≤ k.toNat)) (decide (s.w.toNat % 16 ≤ k.toNat % 16)) (decide (k.toNat = s.w.toNat)))
      (s.setW (BitVec.ofNat 8 (256 + k.toNat - s.w.toNat))) t)

/-- ANDWF, IORWF, XORWF, COMF, MOVF (R117 to R121): the result and Z, for both destinations; C and DC unchanged. -/
def Obligations.LogicFileInstructions : Prop :=
  FileResult .andwf (fun s a => s.w &&& a) 0x04#8 (fun s a => flagsByte false false (decide (s.w &&& a = 0#8))) ∧
  FileResult .iorwf (fun s a => s.w ||| a) 0x04#8
    (fun s a => flagsByte false false (decide (s.w = 0#8 ∧ a = 0#8))) ∧
  FileResult .xorwf (fun s a => s.w ^^^ a) 0x04#8 (fun s a => flagsByte false false (decide (s.w = a))) ∧
  FileResult .comf (fun _ a => BitVec.ofNat 8 (255 - a.toNat)) 0x04#8
    (fun _ a => flagsByte false false (decide (a = 0xFF#8))) ∧
  FileResult .movf (fun _ a => a) 0x04#8 (fun _ a => flagsByte false false (decide (a = 0#8)))

/-- INCF and DECF (R122, R123): modulo 256, Z only, for both destinations. -/
def Obligations.IncrementAndDecrement : Prop :=
  FileResult .incf (fun _ a => BitVec.ofNat 8 (a.toNat + 1)) 0x04#8
    (fun _ a => flagsByte false false (decide (a = 0xFF#8))) ∧
  FileResult .decf (fun _ a => BitVec.ofNat 8 (a.toNat + 255)) 0x04#8
    (fun _ a => flagsByte false false (decide (a = 0x01#8)))

/-- INCFSZ and DECFSZ (R124, R125): no flag; exactly the operand 0xFF, and 0x01, skips, after the store, so that a skip adds
one to the target of a PCL store. -/
def Obligations.IncrementAndDecrementSkip : Prop :=
  ∀ (s u : State) (f : FileAddr) (d : Dest) (a : Byte), memRead (fileAddress f) s = .ok a →
    (Stored d f (BitVec.ofNat 8 (a.toNat + 1)) s u →
      exec (.incfsz f d) s =
        .next (if a = 0xFF#8 then (u.setPcNext (BitVec.ofNat 13 (u.pcNext.toNat + 1))).setTwoCycle true else u)) ∧
    (Stored d f (BitVec.ofNat 8 (a.toNat + 255)) s u →
      exec (.decfsz f d) s =
        .next (if a = 0x01#8 then (u.setPcNext (BitVec.ofNat 13 (u.pcNext.toNat + 1))).setTwoCycle true else u))

/-- RLF and RRF (R130, R131): through the carry, C only. -/
def Obligations.RotatesThroughCarry : Prop :=
  FileResult .rlf (fun s a => BitVec.ofNat 8 (2 * a.toNat + carryIn s)) 0x01#8
    (fun _ a => flagsByte (decide (128 ≤ a.toNat)) false false) ∧
  FileResult .rrf (fun s a => BitVec.ofNat 8 (a.toNat / 2 + 128 * carryIn s)) 0x01#8
    (fun _ a => flagsByte (decide (a.toNat % 2 = 1)) false false)

/-- RLF then RRF, and RRF then RLF, on a general purpose register restore its byte and the carry (R130, R131). -/
def Obligations.RotatesAreInverse : Prop :=
  ∀ (s : State) (f : FileAddr), 0x0C ≤ f.toNat → f.toNat ≤ 0x4F →
    (∃ t u, exec (.rlf f .f) s = .next t ∧ exec (.rrf f .f) t = .next u ∧
      u.cell (fileAddress f) = s.cell (fileAddress f) ∧ carryIn u = carryIn s) ∧
    (∃ t u, exec (.rrf f .f) s = .next t ∧ exec (.rlf f .f) t = .next u ∧
      u.cell (fileAddress f) = s.cell (fileAddress f) ∧ carryIn u = carryIn s)

/-- SWAPF writes no flag, MOVWF stores W, CLRF stores 0 and sets Z last, CLRW clears W and sets Z (R132 to R135). -/
def Obligations.MovesAndClears : Prop :=
  (∀ (s u : State) (f : FileAddr) (d : Dest) (a : Byte), memRead (fileAddress f) s = .ok a →
    Stored d f (BitVec.ofNat 8 (a.toNat % 16 * 16 + a.toNat / 16)) s u → exec (.swapf f d) s = .next u) ∧
  (∀ (s u : State) (f : FileAddr), Stored .f f s.w s u → exec (.movwf f) s = .next u) ∧
  (∀ (s u : State) (f : FileAddr), Stored .f f 0x00#8 s u →
    ∃ t, exec (.clrf f) s = .next t ∧ StatusOnly 0x04#8 0x04#8 u t) ∧
  (∀ s : State, ∃ t, exec .clrw s = .next t ∧ StatusOnly 0x04#8 0x04#8 (s.setW 0x00#8) t)

/-- BCF and BSF rewrite the whole byte with one bit changed (R67, R126, R127). -/
def Obligations.BitClearAndBitSet : Prop :=
  ∀ (s u : State) (f : FileAddr) (b : BitIndex) (a r : Byte), memRead (fileAddress f) s = .ok a →
    Stored .f f r s u →
    ((∀ n, n < 8 → r.getLsbD n = if n = b.toNat then false else a.getLsbD n) → exec (.bcf f b) s = .next u) ∧
    ((∀ n, n < 8 → r.getLsbD n = if n = b.toNat then true else a.getLsbD n) → exec (.bsf f b) s = .next u)

/-- BTFSC and BTFSS write nothing and skip on the tested bit (R109, R128, R129). -/
def Obligations.BitTestsSkip : Prop :=
  ∀ (s : State) (f : FileAddr) (b : BitIndex) (a : Byte), memRead (fileAddress f) s = .ok a →
    exec (.btfsc f b) s =
      .next (if a.getLsbD b.toNat = false then
        (s.setPcNext (BitVec.ofNat 13 (s.pcNext.toNat + 1))).setTwoCycle true else s) ∧
    exec (.btfss f b) s =
      .next (if a.getLsbD b.toNat = true then
        (s.setPcNext (BitVec.ofNat 13 (s.pcNext.toNat + 1))).setTwoCycle true else s)

/-- An instruction that reads a file operand faults where the read does, in the state it started in; an instruction that
stores to one faults where its own store does, as the store does, the byte being the one it computes from the operand read
first (R59, R66, R67, R112, R152); and neither kind faults otherwise ("memory faults only").
The form of the fault is the model's (log 6). -/
def Obligations.FileInstructionsFaultWithTheirAccess : Prop :=
  (∀ (s : State) (i : Instr) (f : FileAddr) (k : FaultKind), fileOperand i = some f → i ≠ .movwf f → i ≠ .clrf f →
    memRead (fileAddress f) s = .error k → exec i s = .fault (Fault.of k (faultedAt k s))) ∧
  (∀ (s : State) (i : Instr) (f : FileAddr) (a : Byte) (r : Fault), storesTo i = some f → OperandByte i f s a →
    memWrite (fileAddress f) (storedByte i s a) s = .fault r → exec i s = .fault r) ∧
  (∀ (s : State) (i : Instr) (f : FileAddr) (r : Fault), fileOperand i = some f → exec i s = .fault r →
    (i ≠ .movwf f ∧ i ≠ .clrf f ∧ ∃ k, memRead (fileAddress f) s = .error k ∧ r = Fault.of k (faultedAt k s)) ∨
      (storesTo i = some f ∧ ∃ a, OperandByte i f s a ∧ memWrite (fileAddress f) (storedByte i s a) s = .fault r))

/-- A write to PCL by ADDWF is a computed jump (R63, R101): at the fetched state it goes to PCLATH bits 4:0 over the low
byte of `A + 1` plus W. -/
def Obligations.ComputedJumpThroughPcl : Prop :=
  ∀ c : State, ∃ t, exec (.addwf 2#7 .f) (advance c) = .next t ∧
    t.pcNext.toNat = ((c.cell 0x0A#8).toNat % 32) * 256 + ((c.pc.toNat + 1) % 256 + c.w.toNat) % 256 ∧
    t.twoCycle = c.twoCycle ∧ t.pc = c.pc

/-! ### Literal, control and miscellaneous instructions (45_literal.md to 47_misc.md) -/

/-- ANDLW, IORLW, XORLW write W and Z only; MOVLW writes W only (R138 to R141). -/
def Obligations.LiteralLogicAndMove : Prop :=
  ∀ (s : State) (k : Byte),
    (∃ t, exec (.andlw k) s = .next t ∧
      StatusOnly 0x04#8 (flagsByte false false (decide (s.w &&& k = 0#8))) (s.setW (s.w &&& k)) t) ∧
    (∃ t, exec (.iorlw k) s = .next t ∧
      StatusOnly 0x04#8 (flagsByte false false (decide (s.w = 0#8 ∧ k = 0#8))) (s.setW (s.w ||| k)) t) ∧
    (∃ t, exec (.xorlw k) s = .next t ∧
      StatusOnly 0x04#8 (flagsByte false false (decide (s.w = k))) (s.setW (s.w ^^^ k)) t) ∧
    exec (.movlw k) s = .next (s.setW k)

/-- GOTO and CALL go to PCLATH bits 4:3 over the 11-bit literal and take the second cycle; CALL pushes the address after it
(R142 to R144), or faults on a full stack with nothing else changed (R42).
The form of the fault is the model's (log 6). -/
def Obligations.GotoAndCallTargets : Prop :=
  ∀ (s : State) (k : PageAddr) (v : ProgAddr), v.toNat = (s.cell 0x0A#8).toNat / 8 % 4 * 2048 + k.toNat →
    exec (.goto k) s = .next ((s.setPcNext v).setTwoCycle true) ∧
    (s.stack.length < 13 →
      exec (.call k) s =
        .next (((s.setStack (BitVec.ofNat 13 (s.pc.toNat + 1) :: s.stack)).setPcNext v).setTwoCycle true)) ∧
    (13 ≤ s.stack.length → exec (.call k) s = .fault (.stackOverflow (faultedAt .stackOverflow s)))

/-- RETURN, RETLW and RETFIE go to the popped address and take the second cycle; RETLW loads its literal; RETFIE sets GIE in
both INTCON cells and clears no flag (R145 to R147). -/
def Obligations.ReturnsPopTheStack : Prop :=
  ∀ (s : State) (k : Byte) (v : ProgAddr) (rest : List ProgAddr), s.stack = v :: rest →
    exec .ret s = .next (((s.setStack rest).setPcNext v).setTwoCycle true) ∧
    exec (.retlw k) s = .next ((((s.setStack rest).setW k).setPcNext v).setTwoCycle true) ∧
    ∃ t, exec .retfie s = .next t ∧
      t = (((s.setStack rest).setPcNext v).setTwoCycle true).setCells t.cells ∧
      ∀ q, t.cell q = if q = 0x0B#8 ∨ q = 0x8B#8 then s.cell q ||| 0x80#8 else s.cell q

/-- On an empty stack RETURN, RETLW and RETFIE fault with W, GIE and everything else unchanged (R43, R153).
The form of the fault is the model's (log 6). -/
def Obligations.ReturnsUnderflowOnAnEmptyStack : Prop :=
  ∀ (s : State) (k : Byte), s.stack = [] →
    exec .ret s = .fault (.stackUnderflow (faultedAt .stackUnderflow s)) ∧
    exec (.retlw k) s = .fault (.stackUnderflow (faultedAt .stackUnderflow s)) ∧
    exec .retfie s = .fault (.stackUnderflow (faultedAt .stackUnderflow s))

/-- A RETURN with the stack that a CALL left goes to the address after the CALL and restores the stack (R144, R145). -/
def Obligations.ReturnFollowsItsCall : Prop :=
  ∀ (s t u : State) (k : PageAddr), exec (.call k) s = .next t → u.stack = t.stack →
    ∃ v, exec .ret u = .next v ∧ v.pcNext = s.pc + 1#13 ∧ v.stack = s.stack

/-- A RETFIE leaves a request that is still set pending again (R161): its flag and enable with the GIE it set. -/
def Obligations.RetfieLeavesTheRequestPending : Prop :=
  ∀ s t : State, exec .retfie s = .next t →
    (((s.cell 0x0B#8).getLsbD 3 = true ∧ (s.cell 0x0B#8).getLsbD 0 = true) ∨
     ((s.cell 0x0B#8).getLsbD 4 = true ∧ (s.cell 0x0B#8).getLsbD 1 = true) ∨
     ((s.cell 0x0B#8).getLsbD 5 = true ∧ (s.cell 0x0B#8).getLsbD 2 = true) ∨
     ((s.cell 0x0B#8).getLsbD 6 = true ∧ (s.cell 0x88#8).getLsbD 4 = true)) →
    intPending t = true

/-- NOP changes nothing; CLRWDT clears the Watchdog, sets TO and PD, and clears PS exactly when the parameter says so; SLEEP
sets `sleeping`, clears the Watchdog, sets TO, clears PD and keeps PC on itself (R149 to R151). -/
def Obligations.NopClrwdtSleep : Prop :=
  ∀ s : State,
    exec .nop s = .next s ∧
    (∃ t, exec .clrwdt s = .next t ∧ t = (s.setWdtAcc 0).setCells t.cells ∧
      ∀ q, t.cell q =
        if q = 0x03#8 ∨ q = 0x83#8 then s.cell q ||| 0x18#8
        else if q = 0x81#8 ∧ s.params.clrwdtClearsPs = true then s.cell q &&& 0xF8#8
        else s.cell q) ∧
    (∃ t, exec .sleep s = .next t ∧ t = (((s.setSleeping true).setWdtAcc 0).setPcNext s.pc).setCells t.cells ∧
      ∀ q, t.cell q = if q = 0x03#8 ∨ q = 0x83#8 then (s.cell q ||| 0x10#8) &&& 0xF7#8 else s.cell q)

/-! ### Every instruction -/

/-- The frame of every instruction that completes: no cell outside its store's cells changes, but for the bits it writes
itself; no EEPROM byte but the committed one; W, the stack, `sleeping`, `wdt_acc` and `tmr0_wait` only where the instruction
writes them; and nothing else but the next address and the second-cycle request. -/
def Obligations.InstructionFrame : Prop :=
  ∀ (i : Instr) (s t : State), exec i s = .next t →
    (∀ q, q ∉ storedCells i s → t.cell q &&& ~~~ownBits i s q = s.cell q &&& ~~~ownBits i s q) ∧
    (∀ j, storedPrimary i s ≠ some 0x88#8 ∨ j ≠ s.cell 0x09#8 → t.eeByte j = s.eeByte j) ∧
    (writesW i = false → t.w = s.w) ∧
    (usesStack i = false → t.stack = s.stack) ∧
    (i ≠ .sleep → t.sleeping = s.sleeping) ∧
    (i ≠ .sleep → i ≠ .clrwdt → t.wdtAcc = s.wdtAcc) ∧
    (storedPrimary i s ≠ some 0x01#8 → t.tmr0Wait = s.tmr0Wait) ∧
    t.params = s.params ∧ t.pc = s.pc ∧ t.prescCount = s.prescCount ∧ t.t0ckPrev = s.t0ckPrev ∧
    t.fault = s.fault ∧ t.cycles = s.cycles

/-- Exactly the control transfers, and the four skip instructions when they skip, request the second cycle (R110). -/
def Obligations.SecondCycleRequests : Prop :=
  ∀ (i : Instr) (s t : State), exec i s = .next t → s.twoCycle = false →
    (t.twoCycle = true ↔ RequestsSecondCycle i s)

/-- Nothing writes the program or the other parameters: no instruction, no step, no host event (R52, R80). -/
def Obligations.NothingWritesTheProgram : Prop :=
  (∀ (i : Instr) (s t : State), exec i s = .next t → t.params = s.params) ∧
  (∀ (e : Event) (s t : State), applyEvent e s = .next t → t.params = s.params) ∧
  (∀ (e : Event) (s : State) (r : Fault), applyEvent e s = .fault r → r.left.params = s.params)

/-! ### Timer0 and the Watchdog (60_exceptions.md §6, §7) -/

/-- A Timer0 tick in timer mode (R165 to R168, R171): a pending wait is counted down instead of counting; with PSA = 1 every
tick counts; with PSA = 0 the tick that reaches the ratio counts. The sample is remembered in every case (R170). -/
def Obligations.Timer0TimerMode : Prop :=
  ∀ s : State, (s.cell 0x81#8).getLsbD 5 = false →
    (∀ n, s.tmr0Wait = n + 1 → tmr0Tick s = (s.setTmr0Wait n).setT0ckPrev ((s.cell 0x05#8).getLsbD 4)) ∧
    (s.tmr0Wait = 0 → (s.cell 0x81#8).getLsbD 3 = true →
      ∃ u, Tmr0Counted s u ∧ tmr0Tick s = u.setT0ckPrev ((s.cell 0x05#8).getLsbD 4)) ∧
    (s.tmr0Wait = 0 → (s.cell 0x81#8).getLsbD 3 = false →
      (s.prescCount + 1 < 2 ^ ((s.cell 0x81#8).toNat % 8 + 1) →
        tmr0Tick s = (s.setPrescCount (s.prescCount + 1)).setT0ckPrev ((s.cell 0x05#8).getLsbD 4)) ∧
      (2 ^ ((s.cell 0x81#8).toNat % 8 + 1) ≤ s.prescCount + 1 →
        ∃ u, Tmr0Counted (s.setPrescCount 0) u ∧ tmr0Tick s = u.setT0ckPrev ((s.cell 0x05#8).getLsbD 4)))

/-- A Timer0 tick in counter mode (R169, R170): it counts exactly on the edge T0SE selects between the previous sample and
PORTA bit 4, with no prescaler and no wait. -/
def Obligations.Timer0CounterMode : Prop :=
  ∀ s : State, (s.cell 0x81#8).getLsbD 5 = true →
    ((((s.cell 0x81#8).getLsbD 4 = false ∧ s.t0ckPrev = false ∧ (s.cell 0x05#8).getLsbD 4 = true) ∨
      ((s.cell 0x81#8).getLsbD 4 = true ∧ s.t0ckPrev = true ∧ (s.cell 0x05#8).getLsbD 4 = false)) →
      ∃ u, Tmr0Counted s u ∧ tmr0Tick s = u.setT0ckPrev ((s.cell 0x05#8).getLsbD 4)) ∧
    (¬(((s.cell 0x81#8).getLsbD 4 = false ∧ s.t0ckPrev = false ∧ (s.cell 0x05#8).getLsbD 4 = true) ∨
      ((s.cell 0x81#8).getLsbD 4 = true ∧ s.t0ckPrev = true ∧ (s.cell 0x05#8).getLsbD 4 = false)) →
      tmr0Tick s = s.setT0ckPrev ((s.cell 0x05#8).getLsbD 4))

/-- With the prescaler on Timer0 and its count at 0, TMR0 keeps its value for the ticks below the ratio and is one higher
after exactly the ratio, for every ratio 2 to 256 (R167). -/
def Obligations.Timer0CountsOncePerRatio : Prop :=
  ∀ s : State, (s.cell 0x81#8).getLsbD 5 = false → (s.cell 0x81#8).getLsbD 3 = false → s.tmr0Wait = 0 →
    s.prescCount = 0 →
    (∀ n, n < 2 ^ ((s.cell 0x81#8).toNat % 8 + 1) →
      (tmr0Tick^[n] s).cell 0x01#8 = s.cell 0x01#8 ∧ (tmr0Tick^[n] s).prescCount = n) ∧
    ((tmr0Tick^[2 ^ ((s.cell 0x81#8).toNat % 8 + 1)] s).cell 0x01#8).toNat = ((s.cell 0x01#8).toNat + 1) % 256 ∧
    (tmr0Tick^[2 ^ ((s.cell 0x81#8).toNat % 8 + 1)] s).prescCount = 0

/-- Below its limit a Watchdog tick only counts (R173, R174). -/
def Obligations.WatchdogCountsBelowItsLimit : Prop :=
  ∀ s : State, s.wdtAcc + 1 < watchdogLimit s → wdtTick s = s.setWdtAcc (s.wdtAcc + 1)

/-- At its limit while the core sleeps, the Watchdog wakes it (R175): `sleeping` and the accumulator are cleared, PC advances by
one with its mirror, and nothing else changes, TO and PD among it.
That `pcNext` follows PC is the model's (log 5). -/
def Obligations.WatchdogWakesASleepingCore : Prop :=
  ∀ s : State, watchdogLimit s ≤ s.wdtAcc + 1 → s.sleeping = true →
    MovedTo (BitVec.ofNat 13 (s.pc.toNat + 1)) ((s.setSleeping false).setWdtAcc 0) (wdtTick s)

/-- At its limit while the core is awake, the Watchdog resets it (R176): every element has its reset value but STATUS, which is
0x10 in both cells; the EEPROM, the parameters and `fault` are kept. -/
def Obligations.WatchdogResetsAnAwakeCore : Prop :=
  ∀ s : State, watchdogLimit s ≤ s.wdtAcc + 1 → s.sleeping = false →
    (∀ q, (wdtTick s).cell q = if q = 0x03#8 ∨ q = 0x83#8 then 0x10#8 else powerOnByte q) ∧
    (wdtTick s).w = 0x00#8 ∧ (wdtTick s).pc = 0#13 ∧ (wdtTick s).stack = [] ∧ (wdtTick s).sleeping = false ∧
    (wdtTick s).twoCycle = false ∧ (wdtTick s).prescCount = 0 ∧ (wdtTick s).tmr0Wait = 0 ∧ (wdtTick s).wdtAcc = 0 ∧
    (wdtTick s).t0ckPrev = false ∧ (wdtTick s).ee = s.ee ∧ (wdtTick s).params = s.params ∧ (wdtTick s).fault = s.fault

/-- The accumulator is set to 0 by CLRWDT, SLEEP, a Watchdog timeout and `Reset()`, and by nothing else (R177): every other
instruction, Timer0, interrupt entry and the host's port write keep it. -/
def Obligations.WatchdogClearedByFourEventsOnly : Prop :=
  (∀ (i : Instr) (s t : State), exec i s = .next t →
    t.wdtAcc = if i = .clrwdt ∨ i = .sleep then 0 else s.wdtAcc) ∧
  (∀ s : State, (wdtTick s).wdtAcc = if watchdogLimit s ≤ s.wdtAcc + 1 then 0 else s.wdtAcc + 1) ∧
  (∀ s : State, (tmr0Tick s).wdtAcc = s.wdtAcc) ∧
  (∀ s t : State, intEntry s = .next t → t.wdtAcc = s.wdtAcc) ∧
  (∀ (p : Port) (b : BitIndex) (v : Bool) (s : State), (hostPortWrite p b v s).wdtAcc = s.wdtAcc) ∧
  (∀ s : State, (resetCore s).wdtAcc = 0)

/-! ### The step (40_step.md) -/

/-- A step that fetches a word that decodes to `i` (R69: the low 14 bits of the word stored at PC) is `exec` of `i` after the
first machine cycle and the fetch, followed by `SetPC` and, where it was requested, the second machine cycle (R95, R103 to
R105); and what these are: a machine cycle is the Watchdog's tick, then Timer0's unless the core sleeps after it (R98, R105);
the fetch sets the next address to `A + 1` and both PCL cells to its low byte (R101, R102); `SetPC` sets PC and both PCL cells
(R104). The field `cycles` and `pcNext` following PC are the model's (log 4, log 5). -/
def Obligations.StepRunsTheDecodedInstruction : Prop :=
  (∀ (s : State) (w : ProgWord) (i : Instr), Fetches s w → decode w = .ok i →
    step s = andThen (exec i (advance (machineCycle s))) fun t => .next (finishStep t)) ∧
  (∀ c : State, machineCycle c = if (wdtTick c).sleeping then wdtTick c else tmr0Tick (wdtTick c)) ∧
  (∀ c : State, advance c = (c.setPcNext (BitVec.ofNat 13 (c.pc.toNat + 1))).setCells (advance c).cells ∧
    ∀ q, (advance c).cell q = if q = 0x02#8 ∨ q = 0x82#8 then BitVec.ofNat 8 (c.pc.toNat + 1) else c.cell q) ∧
  (∀ (v : ProgAddr) (c : State), MovedTo v c (setPC v c)) ∧
  (∀ t : State, t.twoCycle = false → finishStep t = (setPC t.pcNext t).setCycles 1) ∧
  (∀ t : State, t.twoCycle = true → finishStep t = ((machineCycle (setPC t.pcNext t)).setTwoCycle false).setCycles 2)

/-- A step that fetches an unmatched word advances PC by one, takes one cycle, and changes no other register or flag (R107).
The field `cycles` and `pcNext` following PC are the model's (log 4, log 5). -/
def Obligations.UnmatchedWordIsANoOp : Prop :=
  ∀ (s : State) (w : ProgWord) (e : DecodeError), Fetches s w → (machineCycle s).twoCycle = false →
    decode w = .error e →
    ∃ t, step s = .next t ∧ MovedTo (BitVec.ofNat 13 ((machineCycle s).pc.toNat + 1)) ((machineCycle s).setCycles 1) t

/-- A step of a faulted core changes no state and returns 0 (R96).
The field `cycles` is the model's (log 4). -/
def Obligations.FaultedCoreDoesNothing : Prop :=
  ∀ (s : State) (k : FaultKind), s.params.prog ≠ [] → s.fault = some k → step s = .next (s.setCycles 0)

/-- A step that faults leaves the core with that fault set and 0 cycles, and every later step leaves that state (R96, R152).
The form of the fault and the field `cycles` are the model's (log 4, log 6). -/
def Obligations.FaultsAreSticky : Prop :=
  ∀ (s : State) (r : Fault), step s = .fault r →
    r.left.fault = some r.kind ∧ r.left.cycles = 0 ∧ step r.left = .next r.left

/-- A core without a program is refused by name (the model's choice, log 7, after 93_implementation_defined.md U12). -/
def Obligations.EmptyProgramIsRefused : Prop :=
  (∀ s : State, s.params.prog = [] → step s = .refused .programNotLoaded) ∧
  (∀ s : State, s.params.prog ≠ [] → ∀ r, step s ≠ .refused r)

/-- `IntPending()` (R156): GIE and one of the four enable and flag pairs. -/
def Obligations.InterruptPendingIsTheFourPairs : Prop :=
  ∀ s : State, intPending s = true ↔
    (s.cell 0x0B#8).getLsbD 7 = true ∧
    (((s.cell 0x0B#8).getLsbD 3 = true ∧ (s.cell 0x0B#8).getLsbD 0 = true) ∨
     ((s.cell 0x0B#8).getLsbD 4 = true ∧ (s.cell 0x0B#8).getLsbD 1 = true) ∨
     ((s.cell 0x0B#8).getLsbD 5 = true ∧ (s.cell 0x0B#8).getLsbD 2 = true) ∨
     ((s.cell 0x0B#8).getLsbD 6 = true ∧ (s.cell 0x88#8).getLsbD 4 = true))

/-- A step with a pending interrupt is the entry (R97, R159), awake or asleep: PC pushed, GIE cleared in both cells, PC at 4, one
cycle, and nothing else changed, no tick and no fetch among it; on a full stack it faults with GIE and PC unchanged.
The field `cycles`, `pcNext` following PC and the form of the fault are the model's (log 4, log 5, log 6). -/
def Obligations.InterruptEntryStep : Prop :=
  ∀ s : State, s.params.prog ≠ [] → s.fault = none → intPending s = true →
    (s.stack.length < 13 → ∃ t, step s = .next t ∧
      t = ((((s.setStack (s.pc :: s.stack)).setPcRaw 4#13).setPcNext 4#13).setCycles 1).setCells t.cells ∧
      ∀ q, t.cell q =
        if q = 0x02#8 ∨ q = 0x82#8 then 0x04#8
        else if q = 0x0B#8 ∨ q = 0x8B#8 then s.cell q &&& 0x7F#8
        else s.cell q) ∧
    (13 ≤ s.stack.length → step s = .fault (.stackOverflow (faultedAt .stackOverflow s)))

/-- A step of a sleeping core below the Watchdog's limit ticks the Watchdog only and returns 1 (R99).
The field `cycles` is the model's (log 4). -/
def Obligations.SleepingStepTicksTheWatchdogOnly : Prop :=
  ∀ s : State, s.params.prog ≠ [] → s.fault = none → intPending s = false → s.sleeping = true →
    s.wdtAcc + 1 < watchdogLimit s → step s = .next ((s.setWdtAcc (s.wdtAcc + 1)).setCycles 1)

/-- A fetch at or past the end of the program faults after the first machine cycle, with no instruction executed (R100).
The form of the fault is the model's (log 6). -/
def Obligations.FetchPastTheProgramFaults : Prop :=
  ∀ s c : State, c = machineCycle s → s.params.prog ≠ [] → s.fault = none → intPending s = false →
    c.sleeping = false → s.params.prog.length ≤ c.pc.toNat →
    step s = .fault (.pcOutOfRange c.pc (faultedAt (.pcOutOfRange c.pc) c))

/-- The cycles a step that runs an instruction returns (R106, R198): 2 when the instruction requests the second cycle, else
1.
The field `cycles` is the model's (log 4). -/
def Obligations.StepCycleCount : Prop :=
  ∀ (s t : State) (w : ProgWord) (i : Instr), Fetches s w → decode w = .ok i → (machineCycle s).twoCycle = false →
    step s = .next t →
    (RequestsSecondCycle i (advance (machineCycle s)) → t.cycles = 2) ∧
    (¬RequestsSecondCycle i (advance (machineCycle s)) → t.cycles = 1)

/-! ### Reset, the host, the invariant -/

/-- `Reset()` (R187) gives every element its reset value; the EEPROM and `fault` are not changed.
That it keeps the parameters is the model's (log 13, after R52). -/
def Obligations.ResetGivesThePowerOnValues : Prop :=
  ∀ s : State,
    (∀ q, (resetCore s).cell q = powerOnByte q) ∧
    (resetCore s).w = 0x00#8 ∧ (resetCore s).pc = 0#13 ∧ (resetCore s).stack = [] ∧ (resetCore s).wdtAcc = 0 ∧
    (resetCore s).sleeping = false ∧ (resetCore s).twoCycle = false ∧ (resetCore s).prescCount = 0 ∧
    (resetCore s).tmr0Wait = 0 ∧ (resetCore s).t0ckPrev = false ∧
    (resetCore s).ee = s.ee ∧ (resetCore s).fault = s.fault ∧ (resetCore s).params = s.params

/-- The power-on state is the reset state with `EE` = `EEPROM_INIT` and no fault, and a `Reset()` right after power-on changes
nothing (R188), for every value of the parameters. -/
def Obligations.PowerOnIsTheResetState : Prop :=
  ∀ (p : Params) (eepromInit : Memory),
    (State.powerOn p eepromInit).ee = eepromInit ∧ (State.powerOn p eepromInit).fault = none ∧
    (State.powerOn p eepromInit).params = p ∧ resetCore (State.powerOn p eepromInit) = State.powerOn p eepromInit

/-- The host's port write (R183) changes one bit of the physical port cell, whatever RP0 is, and on PORTB sets INTF on the
selected edge of bit 0, else RBIF on a change of an input pin among bits 7:4 (R64); nothing else changes. -/
def Obligations.HostPortWriteEffect : Prop :=
  ∀ (s t : State) (p : Port) (b : BitIndex) (v : Bool) (c new : Byte),
    c = (if p = .a then 0x05#8 else 0x06#8) →
    (∀ n, n < 8 → new.getLsbD n = if n = b.toNat then v else (s.cell c).getLsbD n) →
    t = hostPortWrite p b v s →
    t = s.setCells t.cells ∧
    ∀ q, t.cell q =
      if q = c then new
      else if p = .b ∧ (q = 0x0B#8 ∨ q = 0x8B#8) then
        (if ((s.cell 0x81#8).getLsbD 6 = true ∧ (s.cell 0x06#8).getLsbD 0 = false ∧ new.getLsbD 0 = true) ∨
            ((s.cell 0x81#8).getLsbD 6 = false ∧ (s.cell 0x06#8).getLsbD 0 = true ∧ new.getLsbD 0 = false)
          then s.cell q ||| 0x02#8
         else if (s.cell 0x06#8 ^^^ new) &&& 0xF0#8 &&& s.cell 0x86#8 ≠ 0#8 then s.cell q ||| 0x01#8
         else s.cell q)
      else s.cell q

/-- Every step that completes keeps the invariant, from every state that meets it.
Its clauses on `cycles` and `pcNext` are the model's (log 4, log 5). -/
def Obligations.StepKeepsTheInvariant : Prop := ∀ s t : State, s.Inv → step s = .next t → t.Inv

/-- Every host event keeps the invariant: the host's reset and its port writes.
That a host reset keeps `cycles` is the model's (log 13). -/
def Obligations.HostActsKeepTheInvariant : Prop :=
  ∀ s : State, s.Inv → (resetCore s).Inv ∧ ∀ (p : Port) (b : BitIndex) (v : Bool), (hostPortWrite p b v s).Inv

/-- The reset state meets the invariant, and so does the power-on state with any parameters and any EEPROM contents in
canonical form.
The values of `State.reset` that the spec leaves open are the model's (log 2, log 3); the second clause is for every value of them. -/
def Obligations.ResetMeetsTheInvariant : Prop :=
  State.reset.Inv ∧ ∀ (p : Params) (m : Memory), Memory.wf .eeprom m → (State.powerOn p m).Inv

/-- A read of program memory (R69): below the program's length the word stored there, its bits 15 and 14 ignored; at and past
it the fault `PcOutOfRange` with the address. -/
def Obligations.ProgramReadGivesTheStoredWord : Prop :=
  ∀ (s : State) (addr : ProgAddr),
    (∀ u, s.params.prog[addr.toNat]? = some u → progRead addr s = .ok (BitVec.ofNat 14 u.toNat)) ∧
    (s.params.prog.length ≤ addr.toNat → progRead addr s = .error (.pcOutOfRange addr))
end

