-- ==== Sys2Proof/Laws/Memory.lean ====
section
/-! SUPPORT. The laws of a byte memory: a read after a write, the canonical form every operation keeps, and that it
is one form. -/

namespace Sys2Proof.Machine

theorem Memory.lookup_erase (m : Memory) (a b : Nat) :
    Memory.lookup (Memory.erase m a) b = if b = a then none else Memory.lookup m b := by
  induction m with
  | nil => simp [Memory.erase, Memory.lookup]
  | cons c m ih =>
    unfold Memory.erase at ih ⊢
    rw [List.filter_cons]
    by_cases hc : c.1 = a
    · simp only [hc, bne_self_eq_false, Bool.false_eq_true, if_false, ih, Memory.lookup]
      by_cases hb : b = a
      · simp [hb]
      · simp [hb, Ne.symm hb]
    · have hne : (c.1 != a) = true := by simpa using hc
      simp only [hne, if_true, Memory.lookup, ih]
      by_cases hb : c.1 = b
      · have : b ≠ a := fun h => hc (hb.trans h)
        simp [hb, this]
      · simp [hb]

theorem Memory.lookup_insert (m : Memory) (a b : Nat) (v : Byte) (h : Memory.lookup m a = none) :
    Memory.lookup (Memory.insert m a v) b = if b = a then some v else Memory.lookup m b := by
  induction m with
  | nil => by_cases hb : a = b <;> simp [Memory.insert, Memory.lookup, hb, eq_comm (a := b)]
  | cons c m ih =>
    have hc : c.1 ≠ a := by
      intro hc
      simp [Memory.lookup, hc] at h
    have hm : Memory.lookup m a = none := by simpa [Memory.lookup, hc] using h
    by_cases hlt : a < c.1
    · rw [Memory.insert, if_pos hlt]
      by_cases hb : a = b <;> simp [Memory.lookup, hb, eq_comm (a := b)]
    · simp only [Memory.insert, hlt, if_false, Memory.lookup, ih hm]
      by_cases hb : c.1 = b
      · have : b ≠ a := fun h => hc (hb.trans h)
        simp [hb, this]
      · simp [hb]

/-- A read after a write: the written address gives the byte written, every other address what it gave. -/
theorem Memory.read_write (sp : Space) (m : Memory) (a b : Nat) (v : Byte) :
    Memory.read sp (Memory.write sp m a v) b = if b = a then v else Memory.read sp m b := by
  unfold Memory.read Memory.write
  split
  · rename_i hv
    rw [Memory.lookup_erase]
    by_cases hb : b = a <;> simp [hb, hv]
  · rw [Memory.lookup_insert _ _ _ _ (by simp [Memory.lookup_erase]), Memory.lookup_erase]
    by_cases hb : b = a <;> simp [hb]

/-- A memory with nothing listed reads what an unlisted address reads. -/
@[simp] theorem Memory.read_nil (sp : Space) (a : Nat) : Memory.read sp [] a = unlisted sp a := rfl

theorem Memory.mem_insert (m : Memory) (a : Nat) (v : Byte) (c : Host.Cell) :
    c ∈ Memory.insert m a v ↔ c = (a, v) ∨ c ∈ m := by
  induction m with
  | nil => simp [Memory.insert]
  | cons d m ih =>
    unfold Memory.insert
    split
    · simp
    · simp only [List.mem_cons, ih]; tauto

theorem Memory.insert_sorted (m : Memory) (a : Nat) (v : Byte)
    (hs : m.Pairwise (fun c d => c.1 < d.1)) (ha : ∀ c ∈ m, c.1 ≠ a) :
    (Memory.insert m a v).Pairwise (fun c d => c.1 < d.1) := by
  induction m with
  | nil => simp [Memory.insert]
  | cons d m ih =>
    obtain ⟨hd, hm⟩ := List.pairwise_cons.1 hs
    unfold Memory.insert
    split
    · rename_i hlt
      refine List.pairwise_cons.2 ⟨fun c hc => ?_, hs⟩
      rcases List.mem_cons.1 hc with rfl | hc
      · exact hlt
      · exact hlt.trans (hd c hc)
    · rename_i hlt
      refine List.pairwise_cons.2 ⟨fun c hc => ?_, ih hm fun c hc => ha c (List.mem_cons_of_mem _ hc)⟩
      rcases (Memory.mem_insert m a v c).1 hc with rfl | hc
      · have := ha d (List.mem_cons_self ..)
        show d.1 < a
        omega
      · exact hd c hc

/-- A write inside the space keeps the canonical form. -/
theorem Memory.wf_write {sp : Space} {m : Memory} {a : Nat} (v : Byte) (h : Memory.wf sp m)
    (ha : a < spaceSize sp) : Memory.wf sp (Memory.write sp m a v) := by
  have hsub : ∀ c ∈ Memory.erase m a, c ∈ m ∧ c.1 ≠ a := fun c hc => by
    simpa [Memory.erase, List.mem_filter] using hc
  have hsorted : (Memory.erase m a).Pairwise (fun c d => c.1 < d.1) := h.1.filter _
  unfold Memory.write
  split
  · exact ⟨hsorted, fun c hc => h.2 c (hsub c hc).1⟩
  · rename_i hv
    refine ⟨Memory.insert_sorted _ _ _ hsorted fun c hc => (hsub c hc).2, fun c hc => ?_⟩
    rcases (Memory.mem_insert _ _ _ _).1 hc with rfl | hc
    · exact ⟨ha, hv⟩
    · exact h.2 c (hsub c hc).1

/-- The memory with nothing listed is in canonical form. -/
theorem Memory.wf_nil (sp : Space) : Memory.wf sp [] := ⟨List.Pairwise.nil, by simp⟩

/-- In address order, the listed byte of an address is the one entry with that address. -/
theorem Memory.mem_iff_lookup {m : Memory} (h : m.Pairwise (fun c d => c.1 < d.1)) (c : Host.Cell) :
    c ∈ m ↔ Memory.lookup m c.1 = some c.2 := by
  induction m with
  | nil => simp [Memory.lookup]
  | cons d m ih =>
    obtain ⟨hd, hm⟩ := List.pairwise_cons.1 h
    unfold Memory.lookup
    by_cases hc : d.1 = c.1
    · rw [if_pos hc, List.mem_cons]
      constructor
      · rintro (rfl | hmem)
        · rfl
        · exact absurd hc (Nat.ne_of_lt (hd c hmem))
      · intro hv
        exact .inl (Prod.ext hc.symm (Option.some.inj hv).symm)
    · rw [if_neg hc, List.mem_cons, ← ih hm]
      constructor
      · rintro (rfl | hmem)
        · exact absurd rfl hc
        · exact hmem
      · exact .inr

/-- The canonical form is one form: two memories in it that read the same everywhere are the same list. -/
theorem Memory.eq_of_read {sp : Space} {m n : Memory} (hm : Memory.wf sp m) (hn : Memory.wf sp n)
    (h : ∀ a, Memory.read sp m a = Memory.read sp n a) : m = n := by
  have key : ∀ {m n : Memory}, Memory.wf sp m → Memory.wf sp n →
      (∀ a, Memory.read sp m a = Memory.read sp n a) → ∀ c ∈ m, c ∈ n := by
    intro m n hm hn h c hc
    have hl := (Memory.mem_iff_lookup hm.1 c).1 hc
    have hr := h c.1
    unfold Memory.read at hr
    rw [hl, Option.getD_some] at hr
    rw [Memory.mem_iff_lookup hn.1]
    cases hv : Memory.lookup n c.1 with
    | none =>
      rw [hv, Option.getD_none] at hr
      exact absurd hr (hm.2 c hc).2
    | some v =>
      rw [hv, Option.getD_some] at hr
      rw [hr]
  have hmem : ∀ c, c ∈ m ↔ c ∈ n := fun c => ⟨key hm hn h c, key hn hm (fun a => (h a).symm) c⟩
  have sorted : ∀ {m n : Memory}, m.Pairwise (fun c d => c.1 < d.1) → n.Pairwise (fun c d => c.1 < d.1) →
      (∀ c, c ∈ m ↔ c ∈ n) → m = n := by
    intro m
    induction m with
    | nil =>
      intro n _ _ h
      cases n with
      | nil => rfl
      | cons d n => exact absurd ((h d).2 List.mem_cons_self) List.not_mem_nil
    | cons c m ih =>
      intro n hm hn h
      cases n with
      | nil => exact absurd ((h c).1 List.mem_cons_self) List.not_mem_nil
      | cons d n =>
        obtain ⟨hc, hm'⟩ := List.pairwise_cons.1 hm
        obtain ⟨hd, hn'⟩ := List.pairwise_cons.1 hn
        have hcd : c = d := by
          rcases List.mem_cons.1 ((h c).1 List.mem_cons_self) with hcd | hcn
          · exact hcd
          · rcases List.mem_cons.1 ((h d).2 List.mem_cons_self) with hdc | hdm
            · exact hdc.symm
            · have := hc d hdm
              have := hd c hcn
              omega
        subst hcd
        refine congrArg (c :: ·) (ih hm' hn' fun x => ?_)
        constructor
        · intro hx
          rcases List.mem_cons.1 ((h x).1 (List.mem_cons_of_mem _ hx)) with rfl | hx'
          · exact absurd (hc _ hx) (Nat.lt_irrefl _)
          · exact hx'
        · intro hx
          rcases List.mem_cons.1 ((h x).2 (List.mem_cons_of_mem _ hx)) with rfl | hx'
          · exact absurd (hd _ hx) (Nat.lt_irrefl _)
          · exact hx'
  exact sorted hm.1 hn.1 hmem

end Sys2Proof.Machine
end

