-- ==== Sys2Proof/Laws/State.lean ====
section
/-! SUPPORT. Each update of the state, field by field: the updated field and every other one. Each is true by `rfl`;
the parentheses keep simp from using it as a definitional rewrite, which would leave the `Decidable` instance of an
`if` behind. -/

namespace Sys2Proof.Machine

variable (s : State)

/-! ### `State.setW` -/

@[simp] theorem State.setW_params (v : Byte) : (s.setW v).params = s.params := (rfl)
@[simp] theorem State.setW_w (v : Byte) : (s.setW v).w = v := (rfl)
@[simp] theorem State.setW_cells (v : Byte) : (s.setW v).cells = s.cells := (rfl)
@[simp] theorem State.setW_ee (v : Byte) : (s.setW v).ee = s.ee := (rfl)
@[simp] theorem State.setW_pc (v : Byte) : (s.setW v).pc = s.pc := (rfl)
@[simp] theorem State.setW_pcNext (v : Byte) : (s.setW v).pcNext = s.pcNext := (rfl)
@[simp] theorem State.setW_stack (v : Byte) : (s.setW v).stack = s.stack := (rfl)
@[simp] theorem State.setW_sleeping (v : Byte) : (s.setW v).sleeping = s.sleeping := (rfl)
@[simp] theorem State.setW_twoCycle (v : Byte) : (s.setW v).twoCycle = s.twoCycle := (rfl)
@[simp] theorem State.setW_prescCount (v : Byte) : (s.setW v).prescCount = s.prescCount := (rfl)
@[simp] theorem State.setW_tmr0Wait (v : Byte) : (s.setW v).tmr0Wait = s.tmr0Wait := (rfl)
@[simp] theorem State.setW_wdtAcc (v : Byte) : (s.setW v).wdtAcc = s.wdtAcc := (rfl)
@[simp] theorem State.setW_t0ckPrev (v : Byte) : (s.setW v).t0ckPrev = s.t0ckPrev := (rfl)
@[simp] theorem State.setW_fault (v : Byte) : (s.setW v).fault = s.fault := (rfl)
@[simp] theorem State.setW_cycles (v : Byte) : (s.setW v).cycles = s.cycles := (rfl)
@[simp] theorem State.setW_cell (v : Byte) (q : Byte) : (s.setW v).cell q = s.cell q := (rfl)
@[simp] theorem State.setW_eeByte (v : Byte) (j : Byte) : (s.setW v).eeByte j = s.eeByte j := (rfl)

/-! ### `State.setCells` -/

@[simp] theorem State.setCells_params (m : Memory) : (s.setCells m).params = s.params := (rfl)
@[simp] theorem State.setCells_w (m : Memory) : (s.setCells m).w = s.w := (rfl)
@[simp] theorem State.setCells_cells (m : Memory) : (s.setCells m).cells = m := (rfl)
@[simp] theorem State.setCells_ee (m : Memory) : (s.setCells m).ee = s.ee := (rfl)
@[simp] theorem State.setCells_pc (m : Memory) : (s.setCells m).pc = s.pc := (rfl)
@[simp] theorem State.setCells_pcNext (m : Memory) : (s.setCells m).pcNext = s.pcNext := (rfl)
@[simp] theorem State.setCells_stack (m : Memory) : (s.setCells m).stack = s.stack := (rfl)
@[simp] theorem State.setCells_sleeping (m : Memory) : (s.setCells m).sleeping = s.sleeping := (rfl)
@[simp] theorem State.setCells_twoCycle (m : Memory) : (s.setCells m).twoCycle = s.twoCycle := (rfl)
@[simp] theorem State.setCells_prescCount (m : Memory) : (s.setCells m).prescCount = s.prescCount := (rfl)
@[simp] theorem State.setCells_tmr0Wait (m : Memory) : (s.setCells m).tmr0Wait = s.tmr0Wait := (rfl)
@[simp] theorem State.setCells_wdtAcc (m : Memory) : (s.setCells m).wdtAcc = s.wdtAcc := (rfl)
@[simp] theorem State.setCells_t0ckPrev (m : Memory) : (s.setCells m).t0ckPrev = s.t0ckPrev := (rfl)
@[simp] theorem State.setCells_fault (m : Memory) : (s.setCells m).fault = s.fault := (rfl)
@[simp] theorem State.setCells_cycles (m : Memory) : (s.setCells m).cycles = s.cycles := (rfl)
@[simp] theorem State.setCells_eeByte (m : Memory) (j : Byte) : (s.setCells m).eeByte j = s.eeByte j := (rfl)

/-! ### `State.setCell` -/

@[simp] theorem State.setCell_params (p v : Byte) : (s.setCell p v).params = s.params := (rfl)
@[simp] theorem State.setCell_w (p v : Byte) : (s.setCell p v).w = s.w := (rfl)
@[simp] theorem State.setCell_ee (p v : Byte) : (s.setCell p v).ee = s.ee := (rfl)
@[simp] theorem State.setCell_pc (p v : Byte) : (s.setCell p v).pc = s.pc := (rfl)
@[simp] theorem State.setCell_pcNext (p v : Byte) : (s.setCell p v).pcNext = s.pcNext := (rfl)
@[simp] theorem State.setCell_stack (p v : Byte) : (s.setCell p v).stack = s.stack := (rfl)
@[simp] theorem State.setCell_sleeping (p v : Byte) : (s.setCell p v).sleeping = s.sleeping := (rfl)
@[simp] theorem State.setCell_twoCycle (p v : Byte) : (s.setCell p v).twoCycle = s.twoCycle := (rfl)
@[simp] theorem State.setCell_prescCount (p v : Byte) : (s.setCell p v).prescCount = s.prescCount := (rfl)
@[simp] theorem State.setCell_tmr0Wait (p v : Byte) : (s.setCell p v).tmr0Wait = s.tmr0Wait := (rfl)
@[simp] theorem State.setCell_wdtAcc (p v : Byte) : (s.setCell p v).wdtAcc = s.wdtAcc := (rfl)
@[simp] theorem State.setCell_t0ckPrev (p v : Byte) : (s.setCell p v).t0ckPrev = s.t0ckPrev := (rfl)
@[simp] theorem State.setCell_fault (p v : Byte) : (s.setCell p v).fault = s.fault := (rfl)
@[simp] theorem State.setCell_cycles (p v : Byte) : (s.setCell p v).cycles = s.cycles := (rfl)
@[simp] theorem State.setCell_eeByte (p v : Byte) (j : Byte) : (s.setCell p v).eeByte j = s.eeByte j := (rfl)

/-! ### `State.setEe` -/

@[simp] theorem State.setEe_params (m : Memory) : (s.setEe m).params = s.params := (rfl)
@[simp] theorem State.setEe_w (m : Memory) : (s.setEe m).w = s.w := (rfl)
@[simp] theorem State.setEe_cells (m : Memory) : (s.setEe m).cells = s.cells := (rfl)
@[simp] theorem State.setEe_ee (m : Memory) : (s.setEe m).ee = m := (rfl)
@[simp] theorem State.setEe_pc (m : Memory) : (s.setEe m).pc = s.pc := (rfl)
@[simp] theorem State.setEe_pcNext (m : Memory) : (s.setEe m).pcNext = s.pcNext := (rfl)
@[simp] theorem State.setEe_stack (m : Memory) : (s.setEe m).stack = s.stack := (rfl)
@[simp] theorem State.setEe_sleeping (m : Memory) : (s.setEe m).sleeping = s.sleeping := (rfl)
@[simp] theorem State.setEe_twoCycle (m : Memory) : (s.setEe m).twoCycle = s.twoCycle := (rfl)
@[simp] theorem State.setEe_prescCount (m : Memory) : (s.setEe m).prescCount = s.prescCount := (rfl)
@[simp] theorem State.setEe_tmr0Wait (m : Memory) : (s.setEe m).tmr0Wait = s.tmr0Wait := (rfl)
@[simp] theorem State.setEe_wdtAcc (m : Memory) : (s.setEe m).wdtAcc = s.wdtAcc := (rfl)
@[simp] theorem State.setEe_t0ckPrev (m : Memory) : (s.setEe m).t0ckPrev = s.t0ckPrev := (rfl)
@[simp] theorem State.setEe_fault (m : Memory) : (s.setEe m).fault = s.fault := (rfl)
@[simp] theorem State.setEe_cycles (m : Memory) : (s.setEe m).cycles = s.cycles := (rfl)
@[simp] theorem State.setEe_cell (m : Memory) (q : Byte) : (s.setEe m).cell q = s.cell q := (rfl)

/-! ### `State.setEeByte` -/

@[simp] theorem State.setEeByte_params (i v : Byte) : (s.setEeByte i v).params = s.params := (rfl)
@[simp] theorem State.setEeByte_w (i v : Byte) : (s.setEeByte i v).w = s.w := (rfl)
@[simp] theorem State.setEeByte_cells (i v : Byte) : (s.setEeByte i v).cells = s.cells := (rfl)
@[simp] theorem State.setEeByte_pc (i v : Byte) : (s.setEeByte i v).pc = s.pc := (rfl)
@[simp] theorem State.setEeByte_pcNext (i v : Byte) : (s.setEeByte i v).pcNext = s.pcNext := (rfl)
@[simp] theorem State.setEeByte_stack (i v : Byte) : (s.setEeByte i v).stack = s.stack := (rfl)
@[simp] theorem State.setEeByte_sleeping (i v : Byte) : (s.setEeByte i v).sleeping = s.sleeping := (rfl)
@[simp] theorem State.setEeByte_twoCycle (i v : Byte) : (s.setEeByte i v).twoCycle = s.twoCycle := (rfl)
@[simp] theorem State.setEeByte_prescCount (i v : Byte) : (s.setEeByte i v).prescCount = s.prescCount := (rfl)
@[simp] theorem State.setEeByte_tmr0Wait (i v : Byte) : (s.setEeByte i v).tmr0Wait = s.tmr0Wait := (rfl)
@[simp] theorem State.setEeByte_wdtAcc (i v : Byte) : (s.setEeByte i v).wdtAcc = s.wdtAcc := (rfl)
@[simp] theorem State.setEeByte_t0ckPrev (i v : Byte) : (s.setEeByte i v).t0ckPrev = s.t0ckPrev := (rfl)
@[simp] theorem State.setEeByte_fault (i v : Byte) : (s.setEeByte i v).fault = s.fault := (rfl)
@[simp] theorem State.setEeByte_cycles (i v : Byte) : (s.setEeByte i v).cycles = s.cycles := (rfl)
@[simp] theorem State.setEeByte_cell (i v : Byte) (q : Byte) : (s.setEeByte i v).cell q = s.cell q := (rfl)

/-! ### `State.setPcRaw` -/

@[simp] theorem State.setPcRaw_params (v : ProgAddr) : (s.setPcRaw v).params = s.params := (rfl)
@[simp] theorem State.setPcRaw_w (v : ProgAddr) : (s.setPcRaw v).w = s.w := (rfl)
@[simp] theorem State.setPcRaw_cells (v : ProgAddr) : (s.setPcRaw v).cells = s.cells := (rfl)
@[simp] theorem State.setPcRaw_ee (v : ProgAddr) : (s.setPcRaw v).ee = s.ee := (rfl)
@[simp] theorem State.setPcRaw_pc (v : ProgAddr) : (s.setPcRaw v).pc = v := (rfl)
@[simp] theorem State.setPcRaw_pcNext (v : ProgAddr) : (s.setPcRaw v).pcNext = s.pcNext := (rfl)
@[simp] theorem State.setPcRaw_stack (v : ProgAddr) : (s.setPcRaw v).stack = s.stack := (rfl)
@[simp] theorem State.setPcRaw_sleeping (v : ProgAddr) : (s.setPcRaw v).sleeping = s.sleeping := (rfl)
@[simp] theorem State.setPcRaw_twoCycle (v : ProgAddr) : (s.setPcRaw v).twoCycle = s.twoCycle := (rfl)
@[simp] theorem State.setPcRaw_prescCount (v : ProgAddr) : (s.setPcRaw v).prescCount = s.prescCount := (rfl)
@[simp] theorem State.setPcRaw_tmr0Wait (v : ProgAddr) : (s.setPcRaw v).tmr0Wait = s.tmr0Wait := (rfl)
@[simp] theorem State.setPcRaw_wdtAcc (v : ProgAddr) : (s.setPcRaw v).wdtAcc = s.wdtAcc := (rfl)
@[simp] theorem State.setPcRaw_t0ckPrev (v : ProgAddr) : (s.setPcRaw v).t0ckPrev = s.t0ckPrev := (rfl)
@[simp] theorem State.setPcRaw_fault (v : ProgAddr) : (s.setPcRaw v).fault = s.fault := (rfl)
@[simp] theorem State.setPcRaw_cycles (v : ProgAddr) : (s.setPcRaw v).cycles = s.cycles := (rfl)
@[simp] theorem State.setPcRaw_cell (v : ProgAddr) (q : Byte) : (s.setPcRaw v).cell q = s.cell q := (rfl)
@[simp] theorem State.setPcRaw_eeByte (v : ProgAddr) (j : Byte) : (s.setPcRaw v).eeByte j = s.eeByte j := (rfl)

/-! ### `State.setPcNext` -/

@[simp] theorem State.setPcNext_params (v : ProgAddr) : (s.setPcNext v).params = s.params := (rfl)
@[simp] theorem State.setPcNext_w (v : ProgAddr) : (s.setPcNext v).w = s.w := (rfl)
@[simp] theorem State.setPcNext_cells (v : ProgAddr) : (s.setPcNext v).cells = s.cells := (rfl)
@[simp] theorem State.setPcNext_ee (v : ProgAddr) : (s.setPcNext v).ee = s.ee := (rfl)
@[simp] theorem State.setPcNext_pc (v : ProgAddr) : (s.setPcNext v).pc = s.pc := (rfl)
@[simp] theorem State.setPcNext_pcNext (v : ProgAddr) : (s.setPcNext v).pcNext = v := (rfl)
@[simp] theorem State.setPcNext_stack (v : ProgAddr) : (s.setPcNext v).stack = s.stack := (rfl)
@[simp] theorem State.setPcNext_sleeping (v : ProgAddr) : (s.setPcNext v).sleeping = s.sleeping := (rfl)
@[simp] theorem State.setPcNext_twoCycle (v : ProgAddr) : (s.setPcNext v).twoCycle = s.twoCycle := (rfl)
@[simp] theorem State.setPcNext_prescCount (v : ProgAddr) : (s.setPcNext v).prescCount = s.prescCount := (rfl)
@[simp] theorem State.setPcNext_tmr0Wait (v : ProgAddr) : (s.setPcNext v).tmr0Wait = s.tmr0Wait := (rfl)
@[simp] theorem State.setPcNext_wdtAcc (v : ProgAddr) : (s.setPcNext v).wdtAcc = s.wdtAcc := (rfl)
@[simp] theorem State.setPcNext_t0ckPrev (v : ProgAddr) : (s.setPcNext v).t0ckPrev = s.t0ckPrev := (rfl)
@[simp] theorem State.setPcNext_fault (v : ProgAddr) : (s.setPcNext v).fault = s.fault := (rfl)
@[simp] theorem State.setPcNext_cycles (v : ProgAddr) : (s.setPcNext v).cycles = s.cycles := (rfl)
@[simp] theorem State.setPcNext_cell (v : ProgAddr) (q : Byte) : (s.setPcNext v).cell q = s.cell q := (rfl)
@[simp] theorem State.setPcNext_eeByte (v : ProgAddr) (j : Byte) : (s.setPcNext v).eeByte j = s.eeByte j := (rfl)

/-! ### `State.setStack` -/

@[simp] theorem State.setStack_params (l : List ProgAddr) : (s.setStack l).params = s.params := (rfl)
@[simp] theorem State.setStack_w (l : List ProgAddr) : (s.setStack l).w = s.w := (rfl)
@[simp] theorem State.setStack_cells (l : List ProgAddr) : (s.setStack l).cells = s.cells := (rfl)
@[simp] theorem State.setStack_ee (l : List ProgAddr) : (s.setStack l).ee = s.ee := (rfl)
@[simp] theorem State.setStack_pc (l : List ProgAddr) : (s.setStack l).pc = s.pc := (rfl)
@[simp] theorem State.setStack_pcNext (l : List ProgAddr) : (s.setStack l).pcNext = s.pcNext := (rfl)
@[simp] theorem State.setStack_stack (l : List ProgAddr) : (s.setStack l).stack = l := (rfl)
@[simp] theorem State.setStack_sleeping (l : List ProgAddr) : (s.setStack l).sleeping = s.sleeping := (rfl)
@[simp] theorem State.setStack_twoCycle (l : List ProgAddr) : (s.setStack l).twoCycle = s.twoCycle := (rfl)
@[simp] theorem State.setStack_prescCount (l : List ProgAddr) : (s.setStack l).prescCount = s.prescCount := (rfl)
@[simp] theorem State.setStack_tmr0Wait (l : List ProgAddr) : (s.setStack l).tmr0Wait = s.tmr0Wait := (rfl)
@[simp] theorem State.setStack_wdtAcc (l : List ProgAddr) : (s.setStack l).wdtAcc = s.wdtAcc := (rfl)
@[simp] theorem State.setStack_t0ckPrev (l : List ProgAddr) : (s.setStack l).t0ckPrev = s.t0ckPrev := (rfl)
@[simp] theorem State.setStack_fault (l : List ProgAddr) : (s.setStack l).fault = s.fault := (rfl)
@[simp] theorem State.setStack_cycles (l : List ProgAddr) : (s.setStack l).cycles = s.cycles := (rfl)
@[simp] theorem State.setStack_cell (l : List ProgAddr) (q : Byte) : (s.setStack l).cell q = s.cell q := (rfl)
@[simp] theorem State.setStack_eeByte (l : List ProgAddr) (j : Byte) : (s.setStack l).eeByte j = s.eeByte j := (rfl)

/-! ### `State.setSleeping` -/

@[simp] theorem State.setSleeping_params (b : Bool) : (s.setSleeping b).params = s.params := (rfl)
@[simp] theorem State.setSleeping_w (b : Bool) : (s.setSleeping b).w = s.w := (rfl)
@[simp] theorem State.setSleeping_cells (b : Bool) : (s.setSleeping b).cells = s.cells := (rfl)
@[simp] theorem State.setSleeping_ee (b : Bool) : (s.setSleeping b).ee = s.ee := (rfl)
@[simp] theorem State.setSleeping_pc (b : Bool) : (s.setSleeping b).pc = s.pc := (rfl)
@[simp] theorem State.setSleeping_pcNext (b : Bool) : (s.setSleeping b).pcNext = s.pcNext := (rfl)
@[simp] theorem State.setSleeping_stack (b : Bool) : (s.setSleeping b).stack = s.stack := (rfl)
@[simp] theorem State.setSleeping_sleeping (b : Bool) : (s.setSleeping b).sleeping = b := (rfl)
@[simp] theorem State.setSleeping_twoCycle (b : Bool) : (s.setSleeping b).twoCycle = s.twoCycle := (rfl)
@[simp] theorem State.setSleeping_prescCount (b : Bool) : (s.setSleeping b).prescCount = s.prescCount := (rfl)
@[simp] theorem State.setSleeping_tmr0Wait (b : Bool) : (s.setSleeping b).tmr0Wait = s.tmr0Wait := (rfl)
@[simp] theorem State.setSleeping_wdtAcc (b : Bool) : (s.setSleeping b).wdtAcc = s.wdtAcc := (rfl)
@[simp] theorem State.setSleeping_t0ckPrev (b : Bool) : (s.setSleeping b).t0ckPrev = s.t0ckPrev := (rfl)
@[simp] theorem State.setSleeping_fault (b : Bool) : (s.setSleeping b).fault = s.fault := (rfl)
@[simp] theorem State.setSleeping_cycles (b : Bool) : (s.setSleeping b).cycles = s.cycles := (rfl)
@[simp] theorem State.setSleeping_cell (b : Bool) (q : Byte) : (s.setSleeping b).cell q = s.cell q := (rfl)
@[simp] theorem State.setSleeping_eeByte (b : Bool) (j : Byte) : (s.setSleeping b).eeByte j = s.eeByte j := (rfl)

/-! ### `State.setTwoCycle` -/

@[simp] theorem State.setTwoCycle_params (b : Bool) : (s.setTwoCycle b).params = s.params := (rfl)
@[simp] theorem State.setTwoCycle_w (b : Bool) : (s.setTwoCycle b).w = s.w := (rfl)
@[simp] theorem State.setTwoCycle_cells (b : Bool) : (s.setTwoCycle b).cells = s.cells := (rfl)
@[simp] theorem State.setTwoCycle_ee (b : Bool) : (s.setTwoCycle b).ee = s.ee := (rfl)
@[simp] theorem State.setTwoCycle_pc (b : Bool) : (s.setTwoCycle b).pc = s.pc := (rfl)
@[simp] theorem State.setTwoCycle_pcNext (b : Bool) : (s.setTwoCycle b).pcNext = s.pcNext := (rfl)
@[simp] theorem State.setTwoCycle_stack (b : Bool) : (s.setTwoCycle b).stack = s.stack := (rfl)
@[simp] theorem State.setTwoCycle_sleeping (b : Bool) : (s.setTwoCycle b).sleeping = s.sleeping := (rfl)
@[simp] theorem State.setTwoCycle_twoCycle (b : Bool) : (s.setTwoCycle b).twoCycle = b := (rfl)
@[simp] theorem State.setTwoCycle_prescCount (b : Bool) : (s.setTwoCycle b).prescCount = s.prescCount := (rfl)
@[simp] theorem State.setTwoCycle_tmr0Wait (b : Bool) : (s.setTwoCycle b).tmr0Wait = s.tmr0Wait := (rfl)
@[simp] theorem State.setTwoCycle_wdtAcc (b : Bool) : (s.setTwoCycle b).wdtAcc = s.wdtAcc := (rfl)
@[simp] theorem State.setTwoCycle_t0ckPrev (b : Bool) : (s.setTwoCycle b).t0ckPrev = s.t0ckPrev := (rfl)
@[simp] theorem State.setTwoCycle_fault (b : Bool) : (s.setTwoCycle b).fault = s.fault := (rfl)
@[simp] theorem State.setTwoCycle_cycles (b : Bool) : (s.setTwoCycle b).cycles = s.cycles := (rfl)
@[simp] theorem State.setTwoCycle_cell (b : Bool) (q : Byte) : (s.setTwoCycle b).cell q = s.cell q := (rfl)
@[simp] theorem State.setTwoCycle_eeByte (b : Bool) (j : Byte) : (s.setTwoCycle b).eeByte j = s.eeByte j := (rfl)

/-! ### `State.setPrescCount` -/

@[simp] theorem State.setPrescCount_params (n : Nat) : (s.setPrescCount n).params = s.params := (rfl)
@[simp] theorem State.setPrescCount_w (n : Nat) : (s.setPrescCount n).w = s.w := (rfl)
@[simp] theorem State.setPrescCount_cells (n : Nat) : (s.setPrescCount n).cells = s.cells := (rfl)
@[simp] theorem State.setPrescCount_ee (n : Nat) : (s.setPrescCount n).ee = s.ee := (rfl)
@[simp] theorem State.setPrescCount_pc (n : Nat) : (s.setPrescCount n).pc = s.pc := (rfl)
@[simp] theorem State.setPrescCount_pcNext (n : Nat) : (s.setPrescCount n).pcNext = s.pcNext := (rfl)
@[simp] theorem State.setPrescCount_stack (n : Nat) : (s.setPrescCount n).stack = s.stack := (rfl)
@[simp] theorem State.setPrescCount_sleeping (n : Nat) : (s.setPrescCount n).sleeping = s.sleeping := (rfl)
@[simp] theorem State.setPrescCount_twoCycle (n : Nat) : (s.setPrescCount n).twoCycle = s.twoCycle := (rfl)
@[simp] theorem State.setPrescCount_prescCount (n : Nat) : (s.setPrescCount n).prescCount = n := (rfl)
@[simp] theorem State.setPrescCount_tmr0Wait (n : Nat) : (s.setPrescCount n).tmr0Wait = s.tmr0Wait := (rfl)
@[simp] theorem State.setPrescCount_wdtAcc (n : Nat) : (s.setPrescCount n).wdtAcc = s.wdtAcc := (rfl)
@[simp] theorem State.setPrescCount_t0ckPrev (n : Nat) : (s.setPrescCount n).t0ckPrev = s.t0ckPrev := (rfl)
@[simp] theorem State.setPrescCount_fault (n : Nat) : (s.setPrescCount n).fault = s.fault := (rfl)
@[simp] theorem State.setPrescCount_cycles (n : Nat) : (s.setPrescCount n).cycles = s.cycles := (rfl)
@[simp] theorem State.setPrescCount_cell (n : Nat) (q : Byte) : (s.setPrescCount n).cell q = s.cell q := (rfl)
@[simp] theorem State.setPrescCount_eeByte (n : Nat) (j : Byte) : (s.setPrescCount n).eeByte j = s.eeByte j := (rfl)

/-! ### `State.setTmr0Wait` -/

@[simp] theorem State.setTmr0Wait_params (n : Nat) : (s.setTmr0Wait n).params = s.params := (rfl)
@[simp] theorem State.setTmr0Wait_w (n : Nat) : (s.setTmr0Wait n).w = s.w := (rfl)
@[simp] theorem State.setTmr0Wait_cells (n : Nat) : (s.setTmr0Wait n).cells = s.cells := (rfl)
@[simp] theorem State.setTmr0Wait_ee (n : Nat) : (s.setTmr0Wait n).ee = s.ee := (rfl)
@[simp] theorem State.setTmr0Wait_pc (n : Nat) : (s.setTmr0Wait n).pc = s.pc := (rfl)
@[simp] theorem State.setTmr0Wait_pcNext (n : Nat) : (s.setTmr0Wait n).pcNext = s.pcNext := (rfl)
@[simp] theorem State.setTmr0Wait_stack (n : Nat) : (s.setTmr0Wait n).stack = s.stack := (rfl)
@[simp] theorem State.setTmr0Wait_sleeping (n : Nat) : (s.setTmr0Wait n).sleeping = s.sleeping := (rfl)
@[simp] theorem State.setTmr0Wait_twoCycle (n : Nat) : (s.setTmr0Wait n).twoCycle = s.twoCycle := (rfl)
@[simp] theorem State.setTmr0Wait_prescCount (n : Nat) : (s.setTmr0Wait n).prescCount = s.prescCount := (rfl)
@[simp] theorem State.setTmr0Wait_tmr0Wait (n : Nat) : (s.setTmr0Wait n).tmr0Wait = n := (rfl)
@[simp] theorem State.setTmr0Wait_wdtAcc (n : Nat) : (s.setTmr0Wait n).wdtAcc = s.wdtAcc := (rfl)
@[simp] theorem State.setTmr0Wait_t0ckPrev (n : Nat) : (s.setTmr0Wait n).t0ckPrev = s.t0ckPrev := (rfl)
@[simp] theorem State.setTmr0Wait_fault (n : Nat) : (s.setTmr0Wait n).fault = s.fault := (rfl)
@[simp] theorem State.setTmr0Wait_cycles (n : Nat) : (s.setTmr0Wait n).cycles = s.cycles := (rfl)
@[simp] theorem State.setTmr0Wait_cell (n : Nat) (q : Byte) : (s.setTmr0Wait n).cell q = s.cell q := (rfl)
@[simp] theorem State.setTmr0Wait_eeByte (n : Nat) (j : Byte) : (s.setTmr0Wait n).eeByte j = s.eeByte j := (rfl)

/-! ### `State.setWdtAcc` -/

@[simp] theorem State.setWdtAcc_params (n : Nat) : (s.setWdtAcc n).params = s.params := (rfl)
@[simp] theorem State.setWdtAcc_w (n : Nat) : (s.setWdtAcc n).w = s.w := (rfl)
@[simp] theorem State.setWdtAcc_cells (n : Nat) : (s.setWdtAcc n).cells = s.cells := (rfl)
@[simp] theorem State.setWdtAcc_ee (n : Nat) : (s.setWdtAcc n).ee = s.ee := (rfl)
@[simp] theorem State.setWdtAcc_pc (n : Nat) : (s.setWdtAcc n).pc = s.pc := (rfl)
@[simp] theorem State.setWdtAcc_pcNext (n : Nat) : (s.setWdtAcc n).pcNext = s.pcNext := (rfl)
@[simp] theorem State.setWdtAcc_stack (n : Nat) : (s.setWdtAcc n).stack = s.stack := (rfl)
@[simp] theorem State.setWdtAcc_sleeping (n : Nat) : (s.setWdtAcc n).sleeping = s.sleeping := (rfl)
@[simp] theorem State.setWdtAcc_twoCycle (n : Nat) : (s.setWdtAcc n).twoCycle = s.twoCycle := (rfl)
@[simp] theorem State.setWdtAcc_prescCount (n : Nat) : (s.setWdtAcc n).prescCount = s.prescCount := (rfl)
@[simp] theorem State.setWdtAcc_tmr0Wait (n : Nat) : (s.setWdtAcc n).tmr0Wait = s.tmr0Wait := (rfl)
@[simp] theorem State.setWdtAcc_wdtAcc (n : Nat) : (s.setWdtAcc n).wdtAcc = n := (rfl)
@[simp] theorem State.setWdtAcc_t0ckPrev (n : Nat) : (s.setWdtAcc n).t0ckPrev = s.t0ckPrev := (rfl)
@[simp] theorem State.setWdtAcc_fault (n : Nat) : (s.setWdtAcc n).fault = s.fault := (rfl)
@[simp] theorem State.setWdtAcc_cycles (n : Nat) : (s.setWdtAcc n).cycles = s.cycles := (rfl)
@[simp] theorem State.setWdtAcc_cell (n : Nat) (q : Byte) : (s.setWdtAcc n).cell q = s.cell q := (rfl)
@[simp] theorem State.setWdtAcc_eeByte (n : Nat) (j : Byte) : (s.setWdtAcc n).eeByte j = s.eeByte j := (rfl)

/-! ### `State.setT0ckPrev` -/

@[simp] theorem State.setT0ckPrev_params (b : Bool) : (s.setT0ckPrev b).params = s.params := (rfl)
@[simp] theorem State.setT0ckPrev_w (b : Bool) : (s.setT0ckPrev b).w = s.w := (rfl)
@[simp] theorem State.setT0ckPrev_cells (b : Bool) : (s.setT0ckPrev b).cells = s.cells := (rfl)
@[simp] theorem State.setT0ckPrev_ee (b : Bool) : (s.setT0ckPrev b).ee = s.ee := (rfl)
@[simp] theorem State.setT0ckPrev_pc (b : Bool) : (s.setT0ckPrev b).pc = s.pc := (rfl)
@[simp] theorem State.setT0ckPrev_pcNext (b : Bool) : (s.setT0ckPrev b).pcNext = s.pcNext := (rfl)
@[simp] theorem State.setT0ckPrev_stack (b : Bool) : (s.setT0ckPrev b).stack = s.stack := (rfl)
@[simp] theorem State.setT0ckPrev_sleeping (b : Bool) : (s.setT0ckPrev b).sleeping = s.sleeping := (rfl)
@[simp] theorem State.setT0ckPrev_twoCycle (b : Bool) : (s.setT0ckPrev b).twoCycle = s.twoCycle := (rfl)
@[simp] theorem State.setT0ckPrev_prescCount (b : Bool) : (s.setT0ckPrev b).prescCount = s.prescCount := (rfl)
@[simp] theorem State.setT0ckPrev_tmr0Wait (b : Bool) : (s.setT0ckPrev b).tmr0Wait = s.tmr0Wait := (rfl)
@[simp] theorem State.setT0ckPrev_wdtAcc (b : Bool) : (s.setT0ckPrev b).wdtAcc = s.wdtAcc := (rfl)
@[simp] theorem State.setT0ckPrev_t0ckPrev (b : Bool) : (s.setT0ckPrev b).t0ckPrev = b := (rfl)
@[simp] theorem State.setT0ckPrev_fault (b : Bool) : (s.setT0ckPrev b).fault = s.fault := (rfl)
@[simp] theorem State.setT0ckPrev_cycles (b : Bool) : (s.setT0ckPrev b).cycles = s.cycles := (rfl)
@[simp] theorem State.setT0ckPrev_cell (b : Bool) (q : Byte) : (s.setT0ckPrev b).cell q = s.cell q := (rfl)
@[simp] theorem State.setT0ckPrev_eeByte (b : Bool) (j : Byte) : (s.setT0ckPrev b).eeByte j = s.eeByte j := (rfl)

/-! ### `State.setFault` -/

@[simp] theorem State.setFault_params (k : FaultKind) : (s.setFault k).params = s.params := (rfl)
@[simp] theorem State.setFault_w (k : FaultKind) : (s.setFault k).w = s.w := (rfl)
@[simp] theorem State.setFault_cells (k : FaultKind) : (s.setFault k).cells = s.cells := (rfl)
@[simp] theorem State.setFault_ee (k : FaultKind) : (s.setFault k).ee = s.ee := (rfl)
@[simp] theorem State.setFault_pc (k : FaultKind) : (s.setFault k).pc = s.pc := (rfl)
@[simp] theorem State.setFault_pcNext (k : FaultKind) : (s.setFault k).pcNext = s.pcNext := (rfl)
@[simp] theorem State.setFault_stack (k : FaultKind) : (s.setFault k).stack = s.stack := (rfl)
@[simp] theorem State.setFault_sleeping (k : FaultKind) : (s.setFault k).sleeping = s.sleeping := (rfl)
@[simp] theorem State.setFault_twoCycle (k : FaultKind) : (s.setFault k).twoCycle = s.twoCycle := (rfl)
@[simp] theorem State.setFault_prescCount (k : FaultKind) : (s.setFault k).prescCount = s.prescCount := (rfl)
@[simp] theorem State.setFault_tmr0Wait (k : FaultKind) : (s.setFault k).tmr0Wait = s.tmr0Wait := (rfl)
@[simp] theorem State.setFault_wdtAcc (k : FaultKind) : (s.setFault k).wdtAcc = s.wdtAcc := (rfl)
@[simp] theorem State.setFault_t0ckPrev (k : FaultKind) : (s.setFault k).t0ckPrev = s.t0ckPrev := (rfl)
@[simp] theorem State.setFault_fault (k : FaultKind) : (s.setFault k).fault = some k := (rfl)
@[simp] theorem State.setFault_cycles (k : FaultKind) : (s.setFault k).cycles = s.cycles := (rfl)
@[simp] theorem State.setFault_cell (k : FaultKind) (q : Byte) : (s.setFault k).cell q = s.cell q := (rfl)
@[simp] theorem State.setFault_eeByte (k : FaultKind) (j : Byte) : (s.setFault k).eeByte j = s.eeByte j := (rfl)

/-! ### `State.setCycles` -/

@[simp] theorem State.setCycles_params (n : Nat) : (s.setCycles n).params = s.params := (rfl)
@[simp] theorem State.setCycles_w (n : Nat) : (s.setCycles n).w = s.w := (rfl)
@[simp] theorem State.setCycles_cells (n : Nat) : (s.setCycles n).cells = s.cells := (rfl)
@[simp] theorem State.setCycles_ee (n : Nat) : (s.setCycles n).ee = s.ee := (rfl)
@[simp] theorem State.setCycles_pc (n : Nat) : (s.setCycles n).pc = s.pc := (rfl)
@[simp] theorem State.setCycles_pcNext (n : Nat) : (s.setCycles n).pcNext = s.pcNext := (rfl)
@[simp] theorem State.setCycles_stack (n : Nat) : (s.setCycles n).stack = s.stack := (rfl)
@[simp] theorem State.setCycles_sleeping (n : Nat) : (s.setCycles n).sleeping = s.sleeping := (rfl)
@[simp] theorem State.setCycles_twoCycle (n : Nat) : (s.setCycles n).twoCycle = s.twoCycle := (rfl)
@[simp] theorem State.setCycles_prescCount (n : Nat) : (s.setCycles n).prescCount = s.prescCount := (rfl)
@[simp] theorem State.setCycles_tmr0Wait (n : Nat) : (s.setCycles n).tmr0Wait = s.tmr0Wait := (rfl)
@[simp] theorem State.setCycles_wdtAcc (n : Nat) : (s.setCycles n).wdtAcc = s.wdtAcc := (rfl)
@[simp] theorem State.setCycles_t0ckPrev (n : Nat) : (s.setCycles n).t0ckPrev = s.t0ckPrev := (rfl)
@[simp] theorem State.setCycles_fault (n : Nat) : (s.setCycles n).fault = s.fault := (rfl)
@[simp] theorem State.setCycles_cycles (n : Nat) : (s.setCycles n).cycles = n := (rfl)
@[simp] theorem State.setCycles_cell (n : Nat) (q : Byte) : (s.setCycles n).cell q = s.cell q := (rfl)
@[simp] theorem State.setCycles_eeByte (n : Nat) (j : Byte) : (s.setCycles n).eeByte j = s.eeByte j := (rfl)

/-! ### Reads after writes -/

/-- A cell read after a cell write. -/
@[simp] theorem State.setCell_cell (p v q : Byte) : (s.setCell p v).cell q = if q = p then v else s.cell q := by
  simp only [State.cell, State.setCell, State.setCells_cells, Memory.read_write, BitVec.toNat_inj]

/-- An EEPROM byte read after an EEPROM write. -/
@[simp] theorem State.setEeByte_eeByte (i v j : Byte) :
    (s.setEeByte i v).eeByte j = if j = i then v else s.eeByte j := by
  simp only [State.eeByte, State.setEeByte, State.setEe_ee, Memory.read_write, BitVec.toNat_inj]

theorem State.cell_setCells (m : Memory) (q : Byte) : (s.setCells m).cell q = Memory.read .registerFile m q.toNat := rfl

/-- Two states that agree in every field but `cells` differ by `setCells`. -/
theorem State.setCell_eq_setCells (p v : Byte) : s.setCell p v = s.setCells (s.setCell p v).cells := rfl

end Sys2Proof.Machine
end

