-- ==== Sys2Proof/Laws/CellOps.lean ====
section
/-! SUPPORT. The operations that write register-file cells only, field by field. -/

namespace Sys2Proof.Machine

/-- Writing cells only, twice. -/
theorem State.eq_setCells_trans {s t u : State} (h : t = s.setCells t.cells) (k : u = t.setCells u.cells) :
    u = s.setCells u.cells := by
  rw [h] at k
  exact k

variable (s : State)

/-! `writeAliasedBit` -/

theorem writeAliasedBit_eq_setCells (p : Byte) (n : Nat) (b : Bool) : writeAliasedBit p n b s = s.setCells (writeAliasedBit p n b s).cells := rfl
@[simp] theorem writeAliasedBit_params (p : Byte) (n : Nat) (b : Bool) : (writeAliasedBit p n b s).params = s.params := (rfl)
@[simp] theorem writeAliasedBit_w (p : Byte) (n : Nat) (b : Bool) : (writeAliasedBit p n b s).w = s.w := (rfl)
@[simp] theorem writeAliasedBit_ee (p : Byte) (n : Nat) (b : Bool) : (writeAliasedBit p n b s).ee = s.ee := (rfl)
@[simp] theorem writeAliasedBit_pc (p : Byte) (n : Nat) (b : Bool) : (writeAliasedBit p n b s).pc = s.pc := (rfl)
@[simp] theorem writeAliasedBit_pcNext (p : Byte) (n : Nat) (b : Bool) : (writeAliasedBit p n b s).pcNext = s.pcNext := (rfl)
@[simp] theorem writeAliasedBit_stack (p : Byte) (n : Nat) (b : Bool) : (writeAliasedBit p n b s).stack = s.stack := (rfl)
@[simp] theorem writeAliasedBit_sleeping (p : Byte) (n : Nat) (b : Bool) : (writeAliasedBit p n b s).sleeping = s.sleeping := (rfl)
@[simp] theorem writeAliasedBit_twoCycle (p : Byte) (n : Nat) (b : Bool) : (writeAliasedBit p n b s).twoCycle = s.twoCycle := (rfl)
@[simp] theorem writeAliasedBit_prescCount (p : Byte) (n : Nat) (b : Bool) : (writeAliasedBit p n b s).prescCount = s.prescCount := (rfl)
@[simp] theorem writeAliasedBit_tmr0Wait (p : Byte) (n : Nat) (b : Bool) : (writeAliasedBit p n b s).tmr0Wait = s.tmr0Wait := (rfl)
@[simp] theorem writeAliasedBit_wdtAcc (p : Byte) (n : Nat) (b : Bool) : (writeAliasedBit p n b s).wdtAcc = s.wdtAcc := (rfl)
@[simp] theorem writeAliasedBit_t0ckPrev (p : Byte) (n : Nat) (b : Bool) : (writeAliasedBit p n b s).t0ckPrev = s.t0ckPrev := (rfl)
@[simp] theorem writeAliasedBit_fault (p : Byte) (n : Nat) (b : Bool) : (writeAliasedBit p n b s).fault = s.fault := (rfl)
@[simp] theorem writeAliasedBit_cycles (p : Byte) (n : Nat) (b : Bool) : (writeAliasedBit p n b s).cycles = s.cycles := (rfl)
@[simp] theorem writeAliasedBit_eeByte (p : Byte) (n : Nat) (b : Bool) (j : Byte) : (writeAliasedBit p n b s).eeByte j = s.eeByte j := (rfl)

/-! `setIntconBit` -/

theorem setIntconBit_eq_setCells (n : Nat) : setIntconBit n s = s.setCells (setIntconBit n s).cells := writeAliasedBit_eq_setCells ..
@[simp] theorem setIntconBit_params (n : Nat) : (setIntconBit n s).params = s.params := by simp [setIntconBit]
@[simp] theorem setIntconBit_w (n : Nat) : (setIntconBit n s).w = s.w := by simp [setIntconBit]
@[simp] theorem setIntconBit_ee (n : Nat) : (setIntconBit n s).ee = s.ee := by simp [setIntconBit]
@[simp] theorem setIntconBit_pc (n : Nat) : (setIntconBit n s).pc = s.pc := by simp [setIntconBit]
@[simp] theorem setIntconBit_pcNext (n : Nat) : (setIntconBit n s).pcNext = s.pcNext := by simp [setIntconBit]
@[simp] theorem setIntconBit_stack (n : Nat) : (setIntconBit n s).stack = s.stack := by simp [setIntconBit]
@[simp] theorem setIntconBit_sleeping (n : Nat) : (setIntconBit n s).sleeping = s.sleeping := by simp [setIntconBit]
@[simp] theorem setIntconBit_twoCycle (n : Nat) : (setIntconBit n s).twoCycle = s.twoCycle := by simp [setIntconBit]
@[simp] theorem setIntconBit_prescCount (n : Nat) : (setIntconBit n s).prescCount = s.prescCount := by simp [setIntconBit]
@[simp] theorem setIntconBit_tmr0Wait (n : Nat) : (setIntconBit n s).tmr0Wait = s.tmr0Wait := by simp [setIntconBit]
@[simp] theorem setIntconBit_wdtAcc (n : Nat) : (setIntconBit n s).wdtAcc = s.wdtAcc := by simp [setIntconBit]
@[simp] theorem setIntconBit_t0ckPrev (n : Nat) : (setIntconBit n s).t0ckPrev = s.t0ckPrev := by simp [setIntconBit]
@[simp] theorem setIntconBit_fault (n : Nat) : (setIntconBit n s).fault = s.fault := by simp [setIntconBit]
@[simp] theorem setIntconBit_cycles (n : Nat) : (setIntconBit n s).cycles = s.cycles := by simp [setIntconBit]
@[simp] theorem setIntconBit_eeByte (n : Nat) (j : Byte) : (setIntconBit n s).eeByte j = s.eeByte j := by simp [setIntconBit]

/-! `clearIntconBit` -/

theorem clearIntconBit_eq_setCells (n : Nat) : clearIntconBit n s = s.setCells (clearIntconBit n s).cells := writeAliasedBit_eq_setCells ..
@[simp] theorem clearIntconBit_params (n : Nat) : (clearIntconBit n s).params = s.params := by simp [clearIntconBit]
@[simp] theorem clearIntconBit_w (n : Nat) : (clearIntconBit n s).w = s.w := by simp [clearIntconBit]
@[simp] theorem clearIntconBit_ee (n : Nat) : (clearIntconBit n s).ee = s.ee := by simp [clearIntconBit]
@[simp] theorem clearIntconBit_pc (n : Nat) : (clearIntconBit n s).pc = s.pc := by simp [clearIntconBit]
@[simp] theorem clearIntconBit_pcNext (n : Nat) : (clearIntconBit n s).pcNext = s.pcNext := by simp [clearIntconBit]
@[simp] theorem clearIntconBit_stack (n : Nat) : (clearIntconBit n s).stack = s.stack := by simp [clearIntconBit]
@[simp] theorem clearIntconBit_sleeping (n : Nat) : (clearIntconBit n s).sleeping = s.sleeping := by simp [clearIntconBit]
@[simp] theorem clearIntconBit_twoCycle (n : Nat) : (clearIntconBit n s).twoCycle = s.twoCycle := by simp [clearIntconBit]
@[simp] theorem clearIntconBit_prescCount (n : Nat) : (clearIntconBit n s).prescCount = s.prescCount := by simp [clearIntconBit]
@[simp] theorem clearIntconBit_tmr0Wait (n : Nat) : (clearIntconBit n s).tmr0Wait = s.tmr0Wait := by simp [clearIntconBit]
@[simp] theorem clearIntconBit_wdtAcc (n : Nat) : (clearIntconBit n s).wdtAcc = s.wdtAcc := by simp [clearIntconBit]
@[simp] theorem clearIntconBit_t0ckPrev (n : Nat) : (clearIntconBit n s).t0ckPrev = s.t0ckPrev := by simp [clearIntconBit]
@[simp] theorem clearIntconBit_fault (n : Nat) : (clearIntconBit n s).fault = s.fault := by simp [clearIntconBit]
@[simp] theorem clearIntconBit_cycles (n : Nat) : (clearIntconBit n s).cycles = s.cycles := by simp [clearIntconBit]
@[simp] theorem clearIntconBit_eeByte (n : Nat) (j : Byte) : (clearIntconBit n s).eeByte j = s.eeByte j := by simp [clearIntconBit]

/-! `mirrorPcl` -/

theorem mirrorPcl_eq_setCells (v : Byte) : mirrorPcl v s = s.setCells (mirrorPcl v s).cells := rfl
@[simp] theorem mirrorPcl_params (v : Byte) : (mirrorPcl v s).params = s.params := (rfl)
@[simp] theorem mirrorPcl_w (v : Byte) : (mirrorPcl v s).w = s.w := (rfl)
@[simp] theorem mirrorPcl_ee (v : Byte) : (mirrorPcl v s).ee = s.ee := (rfl)
@[simp] theorem mirrorPcl_pc (v : Byte) : (mirrorPcl v s).pc = s.pc := (rfl)
@[simp] theorem mirrorPcl_pcNext (v : Byte) : (mirrorPcl v s).pcNext = s.pcNext := (rfl)
@[simp] theorem mirrorPcl_stack (v : Byte) : (mirrorPcl v s).stack = s.stack := (rfl)
@[simp] theorem mirrorPcl_sleeping (v : Byte) : (mirrorPcl v s).sleeping = s.sleeping := (rfl)
@[simp] theorem mirrorPcl_twoCycle (v : Byte) : (mirrorPcl v s).twoCycle = s.twoCycle := (rfl)
@[simp] theorem mirrorPcl_prescCount (v : Byte) : (mirrorPcl v s).prescCount = s.prescCount := (rfl)
@[simp] theorem mirrorPcl_tmr0Wait (v : Byte) : (mirrorPcl v s).tmr0Wait = s.tmr0Wait := (rfl)
@[simp] theorem mirrorPcl_wdtAcc (v : Byte) : (mirrorPcl v s).wdtAcc = s.wdtAcc := (rfl)
@[simp] theorem mirrorPcl_t0ckPrev (v : Byte) : (mirrorPcl v s).t0ckPrev = s.t0ckPrev := (rfl)
@[simp] theorem mirrorPcl_fault (v : Byte) : (mirrorPcl v s).fault = s.fault := (rfl)
@[simp] theorem mirrorPcl_cycles (v : Byte) : (mirrorPcl v s).cycles = s.cycles := (rfl)
@[simp] theorem mirrorPcl_eeByte (v : Byte) (j : Byte) : (mirrorPcl v s).eeByte j = s.eeByte j := (rfl)

/-! `setFlag` -/

theorem setFlag_eq_setCells (x : Flag) (v : Bool) : setFlag x v s = s.setCells (setFlag x v s).cells := writeAliasedBit_eq_setCells ..
@[simp] theorem setFlag_params (x : Flag) (v : Bool) : (setFlag x v s).params = s.params := by simp [setFlag]
@[simp] theorem setFlag_w (x : Flag) (v : Bool) : (setFlag x v s).w = s.w := by simp [setFlag]
@[simp] theorem setFlag_ee (x : Flag) (v : Bool) : (setFlag x v s).ee = s.ee := by simp [setFlag]
@[simp] theorem setFlag_pc (x : Flag) (v : Bool) : (setFlag x v s).pc = s.pc := by simp [setFlag]
@[simp] theorem setFlag_pcNext (x : Flag) (v : Bool) : (setFlag x v s).pcNext = s.pcNext := by simp [setFlag]
@[simp] theorem setFlag_stack (x : Flag) (v : Bool) : (setFlag x v s).stack = s.stack := by simp [setFlag]
@[simp] theorem setFlag_sleeping (x : Flag) (v : Bool) : (setFlag x v s).sleeping = s.sleeping := by simp [setFlag]
@[simp] theorem setFlag_twoCycle (x : Flag) (v : Bool) : (setFlag x v s).twoCycle = s.twoCycle := by simp [setFlag]
@[simp] theorem setFlag_prescCount (x : Flag) (v : Bool) : (setFlag x v s).prescCount = s.prescCount := by simp [setFlag]
@[simp] theorem setFlag_tmr0Wait (x : Flag) (v : Bool) : (setFlag x v s).tmr0Wait = s.tmr0Wait := by simp [setFlag]
@[simp] theorem setFlag_wdtAcc (x : Flag) (v : Bool) : (setFlag x v s).wdtAcc = s.wdtAcc := by simp [setFlag]
@[simp] theorem setFlag_t0ckPrev (x : Flag) (v : Bool) : (setFlag x v s).t0ckPrev = s.t0ckPrev := by simp [setFlag]
@[simp] theorem setFlag_fault (x : Flag) (v : Bool) : (setFlag x v s).fault = s.fault := by simp [setFlag]
@[simp] theorem setFlag_cycles (x : Flag) (v : Bool) : (setFlag x v s).cycles = s.cycles := by simp [setFlag]
@[simp] theorem setFlag_eeByte (x : Flag) (v : Bool) (j : Byte) : (setFlag x v s).eeByte j = s.eeByte j := by simp [setFlag]

/-! `setArithFlags` -/

theorem setArithFlags_eq_setCells (c dc z : Bool) : setArithFlags c dc z s = s.setCells (setArithFlags c dc z s).cells := 
  State.eq_setCells_trans (State.eq_setCells_trans (setFlag_eq_setCells ..) (setFlag_eq_setCells ..)) (setFlag_eq_setCells ..)
@[simp] theorem setArithFlags_params (c dc z : Bool) : (setArithFlags c dc z s).params = s.params := by simp [setArithFlags]
@[simp] theorem setArithFlags_w (c dc z : Bool) : (setArithFlags c dc z s).w = s.w := by simp [setArithFlags]
@[simp] theorem setArithFlags_ee (c dc z : Bool) : (setArithFlags c dc z s).ee = s.ee := by simp [setArithFlags]
@[simp] theorem setArithFlags_pc (c dc z : Bool) : (setArithFlags c dc z s).pc = s.pc := by simp [setArithFlags]
@[simp] theorem setArithFlags_pcNext (c dc z : Bool) : (setArithFlags c dc z s).pcNext = s.pcNext := by simp [setArithFlags]
@[simp] theorem setArithFlags_stack (c dc z : Bool) : (setArithFlags c dc z s).stack = s.stack := by simp [setArithFlags]
@[simp] theorem setArithFlags_sleeping (c dc z : Bool) : (setArithFlags c dc z s).sleeping = s.sleeping := by simp [setArithFlags]
@[simp] theorem setArithFlags_twoCycle (c dc z : Bool) : (setArithFlags c dc z s).twoCycle = s.twoCycle := by simp [setArithFlags]
@[simp] theorem setArithFlags_prescCount (c dc z : Bool) : (setArithFlags c dc z s).prescCount = s.prescCount := by simp [setArithFlags]
@[simp] theorem setArithFlags_tmr0Wait (c dc z : Bool) : (setArithFlags c dc z s).tmr0Wait = s.tmr0Wait := by simp [setArithFlags]
@[simp] theorem setArithFlags_wdtAcc (c dc z : Bool) : (setArithFlags c dc z s).wdtAcc = s.wdtAcc := by simp [setArithFlags]
@[simp] theorem setArithFlags_t0ckPrev (c dc z : Bool) : (setArithFlags c dc z s).t0ckPrev = s.t0ckPrev := by simp [setArithFlags]
@[simp] theorem setArithFlags_fault (c dc z : Bool) : (setArithFlags c dc z s).fault = s.fault := by simp [setArithFlags]
@[simp] theorem setArithFlags_cycles (c dc z : Bool) : (setArithFlags c dc z s).cycles = s.cycles := by simp [setArithFlags]
@[simp] theorem setArithFlags_eeByte (c dc z : Bool) (j : Byte) : (setArithFlags c dc z s).eeByte j = s.eeByte j := by simp [setArithFlags]

/-! `setAddFlags` -/

theorem setAddFlags_eq_setCells (a b : Byte) : setAddFlags a b s = s.setCells (setAddFlags a b s).cells := setArithFlags_eq_setCells ..
@[simp] theorem setAddFlags_params (a b : Byte) : (setAddFlags a b s).params = s.params := by simp [setAddFlags]
@[simp] theorem setAddFlags_w (a b : Byte) : (setAddFlags a b s).w = s.w := by simp [setAddFlags]
@[simp] theorem setAddFlags_ee (a b : Byte) : (setAddFlags a b s).ee = s.ee := by simp [setAddFlags]
@[simp] theorem setAddFlags_pc (a b : Byte) : (setAddFlags a b s).pc = s.pc := by simp [setAddFlags]
@[simp] theorem setAddFlags_pcNext (a b : Byte) : (setAddFlags a b s).pcNext = s.pcNext := by simp [setAddFlags]
@[simp] theorem setAddFlags_stack (a b : Byte) : (setAddFlags a b s).stack = s.stack := by simp [setAddFlags]
@[simp] theorem setAddFlags_sleeping (a b : Byte) : (setAddFlags a b s).sleeping = s.sleeping := by simp [setAddFlags]
@[simp] theorem setAddFlags_twoCycle (a b : Byte) : (setAddFlags a b s).twoCycle = s.twoCycle := by simp [setAddFlags]
@[simp] theorem setAddFlags_prescCount (a b : Byte) : (setAddFlags a b s).prescCount = s.prescCount := by simp [setAddFlags]
@[simp] theorem setAddFlags_tmr0Wait (a b : Byte) : (setAddFlags a b s).tmr0Wait = s.tmr0Wait := by simp [setAddFlags]
@[simp] theorem setAddFlags_wdtAcc (a b : Byte) : (setAddFlags a b s).wdtAcc = s.wdtAcc := by simp [setAddFlags]
@[simp] theorem setAddFlags_t0ckPrev (a b : Byte) : (setAddFlags a b s).t0ckPrev = s.t0ckPrev := by simp [setAddFlags]
@[simp] theorem setAddFlags_fault (a b : Byte) : (setAddFlags a b s).fault = s.fault := by simp [setAddFlags]
@[simp] theorem setAddFlags_cycles (a b : Byte) : (setAddFlags a b s).cycles = s.cycles := by simp [setAddFlags]
@[simp] theorem setAddFlags_eeByte (a b : Byte) (j : Byte) : (setAddFlags a b s).eeByte j = s.eeByte j := by simp [setAddFlags]

/-! `setSubFlags` -/

theorem setSubFlags_eq_setCells (a b : Byte) : setSubFlags a b s = s.setCells (setSubFlags a b s).cells := setArithFlags_eq_setCells ..
@[simp] theorem setSubFlags_params (a b : Byte) : (setSubFlags a b s).params = s.params := by simp [setSubFlags]
@[simp] theorem setSubFlags_w (a b : Byte) : (setSubFlags a b s).w = s.w := by simp [setSubFlags]
@[simp] theorem setSubFlags_ee (a b : Byte) : (setSubFlags a b s).ee = s.ee := by simp [setSubFlags]
@[simp] theorem setSubFlags_pc (a b : Byte) : (setSubFlags a b s).pc = s.pc := by simp [setSubFlags]
@[simp] theorem setSubFlags_pcNext (a b : Byte) : (setSubFlags a b s).pcNext = s.pcNext := by simp [setSubFlags]
@[simp] theorem setSubFlags_stack (a b : Byte) : (setSubFlags a b s).stack = s.stack := by simp [setSubFlags]
@[simp] theorem setSubFlags_sleeping (a b : Byte) : (setSubFlags a b s).sleeping = s.sleeping := by simp [setSubFlags]
@[simp] theorem setSubFlags_twoCycle (a b : Byte) : (setSubFlags a b s).twoCycle = s.twoCycle := by simp [setSubFlags]
@[simp] theorem setSubFlags_prescCount (a b : Byte) : (setSubFlags a b s).prescCount = s.prescCount := by simp [setSubFlags]
@[simp] theorem setSubFlags_tmr0Wait (a b : Byte) : (setSubFlags a b s).tmr0Wait = s.tmr0Wait := by simp [setSubFlags]
@[simp] theorem setSubFlags_wdtAcc (a b : Byte) : (setSubFlags a b s).wdtAcc = s.wdtAcc := by simp [setSubFlags]
@[simp] theorem setSubFlags_t0ckPrev (a b : Byte) : (setSubFlags a b s).t0ckPrev = s.t0ckPrev := by simp [setSubFlags]
@[simp] theorem setSubFlags_fault (a b : Byte) : (setSubFlags a b s).fault = s.fault := by simp [setSubFlags]
@[simp] theorem setSubFlags_cycles (a b : Byte) : (setSubFlags a b s).cycles = s.cycles := by simp [setSubFlags]
@[simp] theorem setSubFlags_eeByte (a b : Byte) (j : Byte) : (setSubFlags a b s).eeByte j = s.eeByte j := by simp [setSubFlags]

/-! `setZeroFlag` -/

theorem setZeroFlag_eq_setCells (r : Byte) : setZeroFlag r s = s.setCells (setZeroFlag r s).cells := setFlag_eq_setCells ..
@[simp] theorem setZeroFlag_params (r : Byte) : (setZeroFlag r s).params = s.params := by simp [setZeroFlag]
@[simp] theorem setZeroFlag_w (r : Byte) : (setZeroFlag r s).w = s.w := by simp [setZeroFlag]
@[simp] theorem setZeroFlag_ee (r : Byte) : (setZeroFlag r s).ee = s.ee := by simp [setZeroFlag]
@[simp] theorem setZeroFlag_pc (r : Byte) : (setZeroFlag r s).pc = s.pc := by simp [setZeroFlag]
@[simp] theorem setZeroFlag_pcNext (r : Byte) : (setZeroFlag r s).pcNext = s.pcNext := by simp [setZeroFlag]
@[simp] theorem setZeroFlag_stack (r : Byte) : (setZeroFlag r s).stack = s.stack := by simp [setZeroFlag]
@[simp] theorem setZeroFlag_sleeping (r : Byte) : (setZeroFlag r s).sleeping = s.sleeping := by simp [setZeroFlag]
@[simp] theorem setZeroFlag_twoCycle (r : Byte) : (setZeroFlag r s).twoCycle = s.twoCycle := by simp [setZeroFlag]
@[simp] theorem setZeroFlag_prescCount (r : Byte) : (setZeroFlag r s).prescCount = s.prescCount := by simp [setZeroFlag]
@[simp] theorem setZeroFlag_tmr0Wait (r : Byte) : (setZeroFlag r s).tmr0Wait = s.tmr0Wait := by simp [setZeroFlag]
@[simp] theorem setZeroFlag_wdtAcc (r : Byte) : (setZeroFlag r s).wdtAcc = s.wdtAcc := by simp [setZeroFlag]
@[simp] theorem setZeroFlag_t0ckPrev (r : Byte) : (setZeroFlag r s).t0ckPrev = s.t0ckPrev := by simp [setZeroFlag]
@[simp] theorem setZeroFlag_fault (r : Byte) : (setZeroFlag r s).fault = s.fault := by simp [setZeroFlag]
@[simp] theorem setZeroFlag_cycles (r : Byte) : (setZeroFlag r s).cycles = s.cycles := by simp [setZeroFlag]
@[simp] theorem setZeroFlag_eeByte (r : Byte) (j : Byte) : (setZeroFlag r s).eeByte j = s.eeByte j := by simp [setZeroFlag]

/-! `setPowerFlags` -/

theorem setPowerFlags_eq_setCells (x y : Bool) : setPowerFlags x y s = s.setCells (setPowerFlags x y s).cells := 
  State.eq_setCells_trans (setFlag_eq_setCells ..) (setFlag_eq_setCells ..)
@[simp] theorem setPowerFlags_params (x y : Bool) : (setPowerFlags x y s).params = s.params := by simp [setPowerFlags]
@[simp] theorem setPowerFlags_w (x y : Bool) : (setPowerFlags x y s).w = s.w := by simp [setPowerFlags]
@[simp] theorem setPowerFlags_ee (x y : Bool) : (setPowerFlags x y s).ee = s.ee := by simp [setPowerFlags]
@[simp] theorem setPowerFlags_pc (x y : Bool) : (setPowerFlags x y s).pc = s.pc := by simp [setPowerFlags]
@[simp] theorem setPowerFlags_pcNext (x y : Bool) : (setPowerFlags x y s).pcNext = s.pcNext := by simp [setPowerFlags]
@[simp] theorem setPowerFlags_stack (x y : Bool) : (setPowerFlags x y s).stack = s.stack := by simp [setPowerFlags]
@[simp] theorem setPowerFlags_sleeping (x y : Bool) : (setPowerFlags x y s).sleeping = s.sleeping := by simp [setPowerFlags]
@[simp] theorem setPowerFlags_twoCycle (x y : Bool) : (setPowerFlags x y s).twoCycle = s.twoCycle := by simp [setPowerFlags]
@[simp] theorem setPowerFlags_prescCount (x y : Bool) : (setPowerFlags x y s).prescCount = s.prescCount := by simp [setPowerFlags]
@[simp] theorem setPowerFlags_tmr0Wait (x y : Bool) : (setPowerFlags x y s).tmr0Wait = s.tmr0Wait := by simp [setPowerFlags]
@[simp] theorem setPowerFlags_wdtAcc (x y : Bool) : (setPowerFlags x y s).wdtAcc = s.wdtAcc := by simp [setPowerFlags]
@[simp] theorem setPowerFlags_t0ckPrev (x y : Bool) : (setPowerFlags x y s).t0ckPrev = s.t0ckPrev := by simp [setPowerFlags]
@[simp] theorem setPowerFlags_fault (x y : Bool) : (setPowerFlags x y s).fault = s.fault := by simp [setPowerFlags]
@[simp] theorem setPowerFlags_cycles (x y : Bool) : (setPowerFlags x y s).cycles = s.cycles := by simp [setPowerFlags]
@[simp] theorem setPowerFlags_eeByte (x y : Bool) (j : Byte) : (setPowerFlags x y s).eeByte j = s.eeByte j := by simp [setPowerFlags]

end Sys2Proof.Machine
end

