-- ==== Sys2Proof/Laws/Ops.lean ====
section
/-! SUPPORT. One lemma per shared operation, saying everything it can do; later proofs cite these and do not unfold
the operations. -/

namespace Sys2Proof.Machine

/-! ### Outcomes -/

@[simp] theorem andThen_next (s : State) (k : State → Out) : andThen (.next s) k = k s := (rfl)

@[simp] theorem andThen_fault (r : Fault) (k : State → Out) : andThen (.fault r) k = .fault r := (rfl)

@[simp] theorem andThen_refused (r : Refusal) (k : State → Out) : andThen (.refused r) k = .refused r := (rfl)

/-- A sequence answers a next state only through a next state of its first part. -/
theorem andThen_eq_next {o : Out} {k : State → Out} {t : State} :
    andThen o k = .next t ↔ ∃ s, o = .next s ∧ k s = .next t := by
  cases o <;> simp [andThen]

/-- A sequence faults where its first part does, or its second part after it. -/
theorem andThen_eq_fault {o : Out} {k : State → Out} {r : Fault} :
    andThen o k = .fault r ↔ o = .fault r ∨ ∃ s, o = .next s ∧ k s = .fault r := by
  cases o <;> simp [andThen]

/-- A sequence refuses where its first part does, or its second part after it. -/
theorem andThen_eq_refused {o : Out} {k : State → Out} {r : Refusal} :
    andThen o k = .refused r ↔ o = .refused r ∨ ∃ s, o = .next s ∧ k s = .refused r := by
  cases o <;> simp [andThen]

/-- Raising a fault is that fault, with the state it leaves. -/
theorem raise_eq_fault {k : FaultKind} {s : State} {r : Fault} :
    raise k s = .fault r ↔ r = Fault.of k ((s.setFault k).setCycles 0) := by
  simp [raise, eq_comm]

@[simp] theorem raise_ne_refused (k : FaultKind) (s : State) (r : Refusal) : raise k s ≠ .refused r := by simp [raise]

@[simp] theorem raise_ne_next (k : FaultKind) (s t : State) : raise k s ≠ .next t := by simp [raise]

@[simp] theorem Fault.left_of (k : FaultKind) (s : State) : (Fault.of k s).left = s := by cases k <;> rfl

@[simp] theorem Fault.kind_of (k : FaultKind) (s : State) : (Fault.of k s).kind = k := by cases k <;> rfl

/-! ### Bits -/

/-- A bit of a byte with one bit written. -/
theorem withBit_getLsbD (v : Byte) (n : Nat) (b : Bool) (i : Nat) (hi : i < 8) :
    (withBit v n b).getLsbD i = if i = n then b else v.getLsbD i := by
  have hone : (1#8 <<< n).getLsbD i = decide (i = n) := by
    rw [BitVec.getLsbD_shiftLeft]
    by_cases hlt : i < n
    · have : i ≠ n := by omega
      simp [hlt, this]
    · have : (i - n = 0) ↔ i = n := by omega
      simp [hi, hlt, BitVec.getLsbD_one, this]
  cases b
  · simp only [withBit, Bool.false_eq_true, if_false, BitVec.getLsbD_and, BitVec.getLsbD_not, hone, hi,
      decide_true, Bool.true_and]
    by_cases h : i = n <;> simp [h]
  · simp only [withBit, if_true, BitVec.getLsbD_or, hone]
    by_cases h : i = n <;> simp [h]

/-! ### Aliased bits, flags, PCL -/

/-- Writing a bit of an aliased register changes that bit in its two cells. -/
theorem writeAliasedBit_cell (p : Byte) (n : Nat) (b : Bool) (s : State) (q : Byte) :
    (writeAliasedBit p n b s).cell q = if q = p ∨ q = p ||| 0x80#8 then withBit (s.cell q) n b else s.cell q := by
  unfold writeAliasedBit
  by_cases h1 : q = p ||| 0x80#8
  · simp [h1]
  · by_cases h2 : q = p <;> simp_all

theorem setIntconBit_cell (n : Nat) (s : State) (q : Byte) :
    (setIntconBit n s).cell q = if q = 0x0B#8 ∨ q = 0x8B#8 then withBit (s.cell q) n true else s.cell q :=
  writeAliasedBit_cell ..

theorem clearIntconBit_cell (n : Nat) (s : State) (q : Byte) :
    (clearIntconBit n s).cell q = if q = 0x0B#8 ∨ q = 0x8B#8 then withBit (s.cell q) n false else s.cell q :=
  writeAliasedBit_cell ..

theorem setFlag_cell (x : Flag) (v : Bool) (s : State) (q : Byte) :
    (setFlag x v s).cell q = if q = 0x03#8 ∨ q = 0x83#8 then withBit (s.cell q) (flagBit x) v else s.cell q :=
  writeAliasedBit_cell ..

theorem mirrorPcl_cell (v : Byte) (s : State) (q : Byte) :
    (mirrorPcl v s).cell q = if q = 0x02#8 ∨ q = 0x82#8 then v else s.cell q := by
  simp only [mirrorPcl, State.setCell_cell]
  by_cases h1 : q = 0x82#8 <;> by_cases h2 : q = 0x02#8 <;> simp [h1, h2]

/-- `SetPC` sets PC, its mirror PCL, and nothing else. -/
theorem setPC_cell (v : ProgAddr) (s : State) (q : Byte) :
    (setPC v s).cell q = if q = 0x02#8 ∨ q = 0x82#8 then lowByte v else s.cell q := by
  simp [setPC, mirrorPcl_cell]

theorem setPC_eq (v : ProgAddr) (s : State) :
    setPC v s = ((s.setPcRaw v).setPcNext v).setCells (setPC v s).cells := mirrorPcl_eq_setCells ..

/-- The fetch advances the next address and PCL. -/
theorem advance_eq (s : State) : advance s = (s.setPcNext (s.pc + 1)).setCells (advance s).cells :=
  mirrorPcl_eq_setCells ..

theorem advance_cell (s : State) (q : Byte) :
    (advance s).cell q = if q = 0x02#8 ∨ q = 0x82#8 then lowByte (s.pc + 1) else s.cell q := by
  simp [advance, mirrorPcl_cell]

/-! ### The resolver -/

/-- What an address resolves to: an aliased register with its two cells, or one bank-private cell. -/
theorem resolveDirect_cases (a : Byte) (s : State) :
    (isAliased (low7 a) = true ∧
      resolveDirect a s = ⟨fileAddress (low7 a), [fileAddress (low7 a), fileAddress (low7 a) ||| 0x80#8]⟩) ∨
    (isAliased (low7 (a ||| bankBit s.rp0)) = false ∧
      resolveDirect a s = ⟨a ||| bankBit s.rp0, [a ||| bankBit s.rp0]⟩) := by
  have h : low7 (a ||| bankBit s.rp0) = low7 a := by
    cases s.rp0 <;> simp only [bankBit, low7] <;> revert a <;> decide
  unfold resolveDirect
  cases ha : isAliased (low7 a) <;> simp [h, ha]

/-- `Resolve` in one case split, the class given by the primary cell. -/
theorem resolve_cases (a : Byte) (s : State) :
    (∃ lo, isAliased lo = true ∧ resolve a s = ⟨fileAddress lo, [fileAddress lo, fileAddress lo ||| 0x80#8]⟩) ∨
    (∃ p, isAliased (low7 p) = false ∧ resolve a s = ⟨p, [p]⟩) := by
  unfold resolve
  split
  · rcases resolveDirect_cases (indirectAddress s) s with h | h
    · exact .inl ⟨_, h⟩
    · exact .inr ⟨_, h⟩
  · rcases resolveDirect_cases a s with h | h
    · exact .inl ⟨_, h⟩
    · exact .inr ⟨_, h⟩

/-- The primary cell is in the write set. -/
theorem resolve_primary_mem (a : Byte) (s : State) : (resolve a s).primary ∈ (resolve a s).writeSet := by
  rcases resolve_cases a s with ⟨lo, -, h⟩ | ⟨p, -, h⟩ <;> simp [h]

/-- A bank-private primary cell is alone in its write set. -/
theorem resolve_private {a : Byte} {s : State} (h : isAliased (low7 (resolve a s).primary) = false) :
    (resolve a s).writeSet = [(resolve a s).primary] := by
  rcases resolve_cases a s with ⟨lo, ha, hr⟩ | ⟨p, -, hr⟩
  · have hlo : ∀ lo, low7 (fileAddress lo) = lo := by decide
    simp [hr, hlo, ha] at h
  · simp [hr]

/-- The write set by its primary cell: the cell itself and, for a bank-aliased register, its bank-1 copy (R55, R56). -/
theorem mem_writeSet_iff (a q : Byte) (s : State) :
    q ∈ (resolve a s).writeSet ↔
      q = (resolve a s).primary ∨
        (((resolve a s).primary = 0x02#8 ∨ (resolve a s).primary = 0x03#8 ∨ (resolve a s).primary = 0x04#8 ∨
            0x0A ≤ (resolve a s).primary.toNat % 128) ∧ q = (resolve a s).primary ||| 0x80#8) := by
  have hal : ∀ lo, isAliased lo = true → (fileAddress lo = 0x02#8 ∨ fileAddress lo = 0x03#8 ∨ fileAddress lo = 0x04#8 ∨
      0x0A ≤ (fileAddress lo).toNat % 128) := by decide
  have hpr : ∀ p : Byte, isAliased (low7 p) = false →
      ¬(p = 0x02#8 ∨ p = 0x03#8 ∨ p = 0x04#8 ∨ 0x0A ≤ p.toNat % 128) := by decide
  rcases resolve_cases a s with ⟨lo, ha, h⟩ | ⟨p, hp, h⟩
  · simp [h, hal lo ha]
  · simp [h, hpr p hp]

/-! ### Reads -/

/-- A read gives a byte, or it is the EEDATA read that faults (R59). -/
theorem memRead_cases (a : Byte) (s : State) :
    (∃ v, memRead a s = .ok v) ∨
    (memRead a s = .error (.eepromAddressOutOfRange s.eeadr) ∧ (resolve a s).primary = 0x08#8 ∧
      s.eecon1.getLsbD 0 = true ∧ 64 ≤ s.eeadr.toNat) := by
  unfold memRead readPrimary eedataRead
  split
  · exact .inl ⟨_, rfl⟩
  · split
    · split
      · split
        · exact .inr ⟨rfl, by assumption, by assumption, by assumption⟩
        · exact .inl ⟨_, rfl⟩
      · exact .inl ⟨_, rfl⟩
    · exact .inl ⟨_, rfl⟩

/-- `withFile` answers a next state only through a byte it read. -/
theorem withFile_eq_next {f : FileAddr} {s t : State} {k : Byte → Out} :
    withFile f s k = .next t ↔ ∃ a, memRead (fileAddress f) s = .ok a ∧ k a = .next t := by
  unfold withFile
  split <;> simp_all

/-- `withFile` faults with its read, in the state it started in, or after it. -/
theorem withFile_eq_fault {f : FileAddr} {s : State} {k : Byte → Out} {r : Fault} :
    withFile f s k = .fault r ↔
      (∃ e, memRead (fileAddress f) s = .error e ∧ raise e s = .fault r) ∨
      ∃ a, memRead (fileAddress f) s = .ok a ∧ k a = .fault r := by
  unfold withFile
  split <;> simp_all

/-- `modifyBit` faults with its read or with the store of the byte it computed. -/
theorem modifyBit_eq_fault {f : FileAddr} {b : BitIndex} {v : Bool} {s : State} {r : Fault} :
    modifyBit f b v s = .fault r ↔
      (∃ e, memRead (fileAddress f) s = .error e ∧ raise e s = .fault r) ∨
      ∃ a, memRead (fileAddress f) s = .ok a ∧ memWrite (fileAddress f) (withBit a b.toNat v) s = .fault r :=
  withFile_eq_fault

/-- A bit test faults with its read only. -/
theorem testBit_eq_fault {f : FileAddr} {b : BitIndex} {v : Bool} {s : State} {r : Fault} :
    testBit f b v s = .fault r ↔ ∃ e, memRead (fileAddress f) s = .error e ∧ raise e s = .fault r := by
  simp [testBit, withFile_eq_fault]

/-! ### Program memory -/

/-- A fetch inside the program gives the 14 significant bits of the stored word (R69). -/
theorem progRead_of_getElem? {addr : ProgAddr} {s : State} {u : StoredWord} (h : s.params.prog[addr.toNat]? = some u) :
    progRead addr s = .ok (significantBits u) := by simp [progRead, h]

/-- A fetch past the program is out of range (R69). -/
theorem progRead_of_length_le {addr : ProgAddr} {s : State} (h : s.params.prog.length ≤ addr.toNat) :
    progRead addr s = .error (.pcOutOfRange addr) := by simp [progRead, List.getElem?_eq_none h]

/-! ### Writes -/

@[simp] theorem genericWrite_nil (v : Byte) (s : State) : genericWrite [] v s = s := (rfl)

@[simp] theorem genericWrite_cons (q v : Byte) (l : List Byte) (s : State) :
    genericWrite (q :: l) v s = genericWrite l v (s.setCell q v) := rfl

/-- The generic write gives every cell of the write set the byte. -/
theorem genericWrite_cell (l : List Byte) (v : Byte) (s : State) (q : Byte) :
    (genericWrite l v s).cell q = if q ∈ l then v else s.cell q := by
  induction l generalizing s with
  | nil => simp
  | cons p l ih =>
    rw [genericWrite_cons, ih]
    by_cases hl : q ∈ l <;> by_cases hp : q = p <;> simp [hl, hp]

theorem genericWrite_eq_setCells (l : List Byte) (v : Byte) (s : State) :
    genericWrite l v s = s.setCells (genericWrite l v s).cells := by
  induction l generalizing s with
  | nil => rfl
  | cons p l ih =>
    rw [genericWrite_cons]
    exact State.eq_setCells_trans (State.setCell_eq_setCells s p v) (ih _)

theorem portbChange_eq_setCells (old v : Byte) (s : State) :
    portbChange old v s = s.setCells (portbChange old v s).cells := by
  unfold portbChange
  split
  · exact setIntconBit_eq_setCells ..
  · split
    · exact setIntconBit_eq_setCells ..
    · rfl

/-- A PORTB write changes at most INTF or RBIF. -/
theorem portbChange_cell (old v : Byte) (s : State) (q : Byte) :
    (portbChange old v s).cell q =
      if (q = 0x0B#8 ∨ q = 0x8B#8) ∧ rb0Edge s.optionReg old v = true then withBit (s.cell q) 1 true
      else if (q = 0x0B#8 ∨ q = 0x8B#8) ∧ portbInputChange (s.cell 0x86#8) old v = true then withBit (s.cell q) 0 true
      else s.cell q := by
  unfold portbChange
  split
  · rename_i h
    by_cases hq : q = 0x0B#8 ∨ q = 0x8B#8 <;> simp [setIntconBit_cell, h, hq]
  · rename_i h
    split
    · rename_i h2; simp [setIntconBit_cell, h, h2]
    · rename_i h2; simp [h, h2]

/-- The side effects of a write, primary cell by primary cell: at most one of them applies. -/
theorem writeEffects_cases (p v : Byte) (s : State) :
    (p = 0x01#8 ∧ s.optionReg.getLsbD 5 = false ∧ writeEffects p v s = s.setTmr0Wait 2) ∨
    (p = 0x02#8 ∧ writeEffects p v s = s.setPcNext (pclTarget v s)) ∨
    (p = 0x06#8 ∧ writeEffects p v s = portbChange (s.cell 0x06#8) v s) ∨
    (¬(p = 0x01#8 ∧ s.optionReg.getLsbD 5 = false) ∧ p ≠ 0x02#8 ∧ p ≠ 0x06#8 ∧ writeEffects p v s = s) := by
  unfold writeEffects tmr0WriteEffect pclWriteEffect portbWriteEffect
  by_cases h1 : p = 0x01#8 ∧ s.optionReg.getLsbD 5 = false
  · refine .inl ⟨h1.1, h1.2, ?_⟩
    rw [if_pos h1, if_neg (by rw [h1.1]; decide), if_neg (by rw [h1.1]; decide)]
  · refine .inr ?_
    rw [if_neg h1]
    by_cases h2 : p = 0x02#8
    · refine .inl ⟨h2, ?_⟩
      rw [if_pos h2, if_neg (by rw [h2]; decide)]
    · refine .inr ?_
      rw [if_neg h2]
      by_cases h6 : p = 0x06#8
      · exact .inl ⟨h6, by rw [if_pos h6]⟩
      · exact .inr ⟨h1, h2, h6, by rw [if_neg h6]⟩

/-- Everything a completing write can do (R60): an unimplemented cell ignores it; else the side effects and the
generic write happen, followed for EECON1 with WR and WREN by the commit. -/
theorem memWrite_eq_next {a v : Byte} {s t : State} (h : memWrite a v s = .next t) :
    (isUnimplemented (resolve a s).primary = true ∧ t = s) ∨
    (isUnimplemented (resolve a s).primary = false ∧
      ∃ u, u = genericWrite (resolve a s).writeSet v (writeEffects (resolve a s).primary v s) ∧
        ((t = u ∧ ¬((resolve a s).primary = 0x88#8 ∧ u.eecon1.getLsbD 1 = true ∧ u.eecon1.getLsbD 2 = true)) ∨
         ((resolve a s).primary = 0x88#8 ∧ u.eecon1.getLsbD 1 = true ∧ u.eecon1.getLsbD 2 = true ∧
          u.eeadr.toNat < 64 ∧
          t = (u.setEeByte u.eeadr (u.cell 0x08#8)).setCell 0x88#8 (u.eecon1 &&& ~~~0x02#8 ||| 0x10#8)))) := by
  unfold memWrite writeResolved commitAfterWrite eeCommit at h
  split at h
  · rename_i hu
    exact .inl ⟨hu, by simpa using h.symm⟩
  · rename_i hu
    refine .inr ⟨by simpa using hu, _, rfl, ?_⟩
    split at h
    · rename_i hp
      split at h
      · rename_i hc
        rw [Bool.and_eq_true] at hc
        split at h
        · simp at h
        · rename_i ha
          exact .inr ⟨hp, hc.1, hc.2, by omega, by simpa using h.symm⟩
      · rename_i hc
        rw [Bool.and_eq_true] at hc
        exact .inl ⟨by simpa using h.symm, fun hh => hc hh.2⟩
    · rename_i hp
      exact .inl ⟨by simpa using h.symm, fun hh => hp hh.1⟩

/-- A write that stops is the commit out of range (R66). -/
theorem memWrite_ne_next {a v : Byte} {s : State} (h : ∀ t, memWrite a v s ≠ .next t) :
    (resolve a s).primary = 0x88#8 ∧
      ∃ u, u = genericWrite (resolve a s).writeSet v (writeEffects (resolve a s).primary v s) ∧
        u.eecon1.getLsbD 1 = true ∧ u.eecon1.getLsbD 2 = true ∧ 64 ≤ u.eeadr.toNat ∧
        memWrite a v s = raise (.eepromAddressOutOfRange u.eeadr) u := by
  unfold memWrite writeResolved commitAfterWrite eeCommit at h ⊢
  split at h
  · exact absurd rfl (h _)
  · rename_i hu
    split at h
    · rename_i hp
      split at h
      · rename_i hc
        rw [Bool.and_eq_true] at hc
        split at h
        · rename_i ha
          refine ⟨hp, _, rfl, hc.1, hc.2, ha, ?_⟩
          rw [if_neg hu, if_pos hp, if_pos (by rw [Bool.and_eq_true]; exact hc), if_pos ha]
        · exact absurd rfl (h _)
      · exact absurd rfl (h _)
    · exact absurd rfl (h _)

/-- `Dest` answers a next state by writing W or by the memory write. -/
theorem dest_eq_next {d : Dest} {f : FileAddr} {r : Byte} {s t : State} (h : dest d f r s = .next t) :
    (d = .w ∧ t = s.setW r) ∨ (d = .f ∧ memWrite (fileAddress f) r s = .next t) := by
  cases d with
  | w => exact .inl ⟨rfl, by simpa [dest] using h.symm⟩
  | f => exact .inr ⟨rfl, h⟩

/-- An instruction of the `d` shape answers a next state by one read, one store and its flag writes. -/
theorem fileOp_eq_next {f : FileAddr} {d : Dest} {s t : State} {result : Byte → Byte}
    {after : Byte → State → State} :
    fileOp f d s result after = .next t ↔
      ∃ a u, memRead (fileAddress f) s = .ok a ∧ dest d f (result a) s = .next u ∧ t = after a u := by
  simp only [fileOp, withFile_eq_next, andThen_eq_next, Host.Outcome.next.injEq]
  constructor
  · rintro ⟨a, ha, u, hu, rfl⟩; exact ⟨a, u, ha, hu, rfl⟩
  · rintro ⟨a, u, ha, hu, rfl⟩; exact ⟨a, ha, u, hu, rfl⟩

/-- `Dest` faults only by the memory write. -/
theorem dest_eq_fault {d : Dest} {f : FileAddr} {r : Byte} {s : State} {x : Fault} :
    dest d f r s = .fault x ↔ d = .f ∧ memWrite (fileAddress f) r s = .fault x := by
  cases d <;> simp [dest, writeFile]

/-- An instruction of the `d` shape faults with its read or with the store of its result. -/
theorem fileOp_eq_fault {f : FileAddr} {d : Dest} {s : State} {result : Byte → Byte} {after : Byte → State → State}
    {x : Fault} :
    fileOp f d s result after = .fault x ↔
      (∃ e, memRead (fileAddress f) s = .error e ∧ raise e s = .fault x) ∨
      ∃ a, memRead (fileAddress f) s = .ok a ∧ d = .f ∧ memWrite (fileAddress f) (result a) s = .fault x := by
  simp [fileOp, withFile_eq_fault, andThen_eq_fault, dest_eq_fault]

/-! ### The return stack -/

/-- A push that completes had room and adds one entry. -/
theorem push_eq_next {v : ProgAddr} {s t : State} :
    push v s = .next t ↔ s.stack.length < 13 ∧ t = s.setStack (v :: s.stack) := by
  unfold push
  simp only [show stackDepth = 13 from rfl]
  split
  · simp; omega
  · simp only [Host.Outcome.next.injEq]
    constructor
    · rintro rfl; exact ⟨by omega, rfl⟩
    · rintro ⟨-, rfl⟩; rfl

/-- A pop that completes had an entry. -/
theorem withPop_eq_next {s t : State} {k : ProgAddr → State → Out} :
    withPop s k = .next t ↔ ∃ v rest, s.stack = v :: rest ∧ k v (s.setStack rest) = .next t := by
  unfold withPop
  split
  · rename_i h; simp [h]
  · rename_i v rest h
    constructor
    · exact fun hk => ⟨v, rest, h, hk⟩
    · rintro ⟨v', rest', h', hk⟩
      rw [h] at h'
      obtain ⟨rfl, rfl⟩ := List.cons.inj h'
      exact hk

/-- An interrupt entry that completes pushes PC, clears GIE and goes to the vector. -/
theorem intEntry_eq_next {s t : State} :
    intEntry s = .next t ↔ s.stack.length < 13 ∧ t = setPC 4 (clearIntconBit 7 (s.setStack (s.pc :: s.stack))) := by
  simp only [intEntry, andThen_eq_next, push_eq_next, Host.Outcome.next.injEq,
    show interruptVector = 4 from rfl]
  constructor
  · rintro ⟨u, ⟨hl, rfl⟩, rfl⟩; exact ⟨hl, rfl⟩
  · rintro ⟨hl, rfl⟩; exact ⟨_, ⟨hl, rfl⟩, rfl⟩

/-- A skip moves the next address one word on and asks for the second cycle. -/
theorem skipIf_cases (c : Bool) (s : State) :
    (c = true ∧ skipIf c s = (s.setPcNext (s.pcNext + 1)).setTwoCycle true) ∨ (c = false ∧ skipIf c s = s) := by
  cases c <;> simp [skipIf, skip]

end Sys2Proof.Machine
end

