-- ==== Sys2Proof/Laws/Timers.lean ====
section
/-! SUPPORT. What a machine cycle of the timers and a step can do, one case split each; later proofs cite these and do
not unfold the phases. -/

namespace Sys2Proof.Machine

/-! ### CLRWDT's prescaler -/

theorem clearPrescalerRate_cell (s : State) (q : Byte) :
    (clearPrescalerRate s).cell q =
      if q = 0x81#8 ∧ s.params.clrwdtClearsPs = true then s.cell q &&& 0xF8#8 else s.cell q := by
  unfold clearPrescalerRate
  cases h : s.params.clrwdtClearsPs
  · simp
  · by_cases hq : q = 0x81#8 <;> simp [hq, State.optionReg]

theorem clearPrescalerRate_eq_setCells (s : State) :
    clearPrescalerRate s = s.setCells (clearPrescalerRate s).cells := by
  unfold clearPrescalerRate
  split
  · exact State.setCell_eq_setCells ..
  · rfl

/-! ### Reset -/

@[simp] theorem resetCore_params (s : State) : (resetCore s).params = s.params := (rfl)
@[simp] theorem resetCore_w (s : State) : (resetCore s).w = 0x00#8 := (rfl)
@[simp] theorem resetCore_cells (s : State) : (resetCore s).cells = [] := (rfl)
@[simp] theorem resetCore_ee (s : State) : (resetCore s).ee = s.ee := (rfl)
@[simp] theorem resetCore_pc (s : State) : (resetCore s).pc = 0#13 := (rfl)
@[simp] theorem resetCore_pcNext (s : State) : (resetCore s).pcNext = 0#13 := (rfl)
@[simp] theorem resetCore_stack (s : State) : (resetCore s).stack = [] := (rfl)
@[simp] theorem resetCore_sleeping (s : State) : (resetCore s).sleeping = false := (rfl)
@[simp] theorem resetCore_twoCycle (s : State) : (resetCore s).twoCycle = false := (rfl)
@[simp] theorem resetCore_prescCount (s : State) : (resetCore s).prescCount = 0 := (rfl)
@[simp] theorem resetCore_tmr0Wait (s : State) : (resetCore s).tmr0Wait = 0 := (rfl)
@[simp] theorem resetCore_wdtAcc (s : State) : (resetCore s).wdtAcc = 0 := (rfl)
@[simp] theorem resetCore_t0ckPrev (s : State) : (resetCore s).t0ckPrev = false := (rfl)
@[simp] theorem resetCore_fault (s : State) : (resetCore s).fault = s.fault := (rfl)
@[simp] theorem resetCore_cycles (s : State) : (resetCore s).cycles = s.cycles := (rfl)
@[simp] theorem resetCore_cell (s : State) (q : Byte) : (resetCore s).cell q = powerOnCell q.toNat := (rfl)
@[simp] theorem resetCore_eeByte (s : State) (j : Byte) : (resetCore s).eeByte j = s.eeByte j := (rfl)

/-! ### Timer0 -/

/-- One count of Timer0: TMR0 one higher, T0IF on the wrap, nothing else. -/
theorem tmr0Inc_cell (s : State) (q : Byte) :
    (tmr0Inc s).cell q =
      if q = 0x01#8 then s.cell 0x01#8 + 1#8
      else if (q = 0x0B#8 ∨ q = 0x8B#8) ∧ s.cell 0x01#8 = 0xFF#8 then withBit (s.cell q) 2 true
      else s.cell q := by
  have hwrap : s.cell 0x01#8 + 1#8 = 0x00#8 ↔ s.cell 0x01#8 = 0xFF#8 := by
    generalize s.cell 0x01#8 = x; revert x; decide
  unfold tmr0Inc
  simp only [hwrap]
  split
  · rename_i h
    by_cases hq : q = 0x0B#8 ∨ q = 0x8B#8
    · have h1 : q ≠ 0x01#8 := by rcases hq with rfl | rfl <;> decide
      simp [setIntconBit_cell, hq, h, h1]
    · simp [setIntconBit_cell, hq]
  · rename_i h; simp [h]

theorem tmr0Inc_eq_setCells (s : State) : tmr0Inc s = s.setCells (tmr0Inc s).cells := by
  unfold tmr0Inc
  simp only
  split
  · exact State.eq_setCells_trans (State.setCell_eq_setCells s _ _) (setIntconBit_eq_setCells ..)
  · exact State.setCell_eq_setCells ..

@[simp] theorem tmr0Inc_params (s : State) : (tmr0Inc s).params = s.params := by rw [tmr0Inc_eq_setCells]; simp
@[simp] theorem tmr0Inc_w (s : State) : (tmr0Inc s).w = s.w := by rw [tmr0Inc_eq_setCells]; simp
@[simp] theorem tmr0Inc_ee (s : State) : (tmr0Inc s).ee = s.ee := by rw [tmr0Inc_eq_setCells]; simp
@[simp] theorem tmr0Inc_pc (s : State) : (tmr0Inc s).pc = s.pc := by rw [tmr0Inc_eq_setCells]; simp
@[simp] theorem tmr0Inc_pcNext (s : State) : (tmr0Inc s).pcNext = s.pcNext := by rw [tmr0Inc_eq_setCells]; simp
@[simp] theorem tmr0Inc_stack (s : State) : (tmr0Inc s).stack = s.stack := by rw [tmr0Inc_eq_setCells]; simp
@[simp] theorem tmr0Inc_sleeping (s : State) : (tmr0Inc s).sleeping = s.sleeping := by rw [tmr0Inc_eq_setCells]; simp
@[simp] theorem tmr0Inc_twoCycle (s : State) : (tmr0Inc s).twoCycle = s.twoCycle := by rw [tmr0Inc_eq_setCells]; simp
@[simp] theorem tmr0Inc_prescCount (s : State) : (tmr0Inc s).prescCount = s.prescCount := by rw [tmr0Inc_eq_setCells]; simp
@[simp] theorem tmr0Inc_tmr0Wait (s : State) : (tmr0Inc s).tmr0Wait = s.tmr0Wait := by rw [tmr0Inc_eq_setCells]; simp
@[simp] theorem tmr0Inc_wdtAcc (s : State) : (tmr0Inc s).wdtAcc = s.wdtAcc := by rw [tmr0Inc_eq_setCells]; simp
@[simp] theorem tmr0Inc_t0ckPrev (s : State) : (tmr0Inc s).t0ckPrev = s.t0ckPrev := by rw [tmr0Inc_eq_setCells]; simp
@[simp] theorem tmr0Inc_fault (s : State) : (tmr0Inc s).fault = s.fault := by rw [tmr0Inc_eq_setCells]; simp
@[simp] theorem tmr0Inc_cycles (s : State) : (tmr0Inc s).cycles = s.cycles := by rw [tmr0Inc_eq_setCells]; simp

/-- A Timer0 tick waits, counts, counts with the prescaler cleared, counts in the prescaler only, or does nothing; then
it remembers the sample. -/
theorem tmr0Tick_cases (s : State) : ∃ u b, tmr0Tick s = u.setT0ckPrev b ∧
    ((0 < s.tmr0Wait ∧ u = s.setTmr0Wait (s.tmr0Wait - 1)) ∨ u = tmr0Inc s ∨ u = tmr0Inc (s.setPrescCount 0) ∨
      (s.prescCount + 1 < timer0Ratio s.optionReg ∧ u = s.setPrescCount (s.prescCount + 1)) ∨ u = s) := by
  unfold tmr0Tick
  refine ⟨_, _, rfl, ?_⟩
  unfold counterModeTick timerModeTick prescaledTick
  split
  · split
    · exact .inr (.inl rfl)
    · exact .inr (.inr (.inr (.inr rfl)))
  · split
    · exact .inl ⟨by assumption, rfl⟩
    · split
      · exact .inr (.inl rfl)
      · split
        · exact .inr (.inr (.inl rfl))
        · exact .inr (.inr (.inr (.inl ⟨by omega, rfl⟩)))

/-- The Timer0 ratio is 2 to 256. -/
theorem timer0Ratio_le (opt : Byte) : timer0Ratio opt ≤ 256 := by
  revert opt; decide

/-! ### The Watchdog -/

/-- A Watchdog tick counts, or at the threshold wakes a sleeping core or resets an awake one. -/
theorem wdtTick_cases (s : State) :
    (s.wdtAcc + 1 < watchdogThreshold s ∧ wdtTick s = s.setWdtAcc (s.wdtAcc + 1)) ∨
    (watchdogThreshold s ≤ s.wdtAcc + 1 ∧ s.sleeping = true ∧
      wdtTick s = setPC (s.pc + 1#13) ((s.setSleeping false).setWdtAcc 0)) ∨
    (watchdogThreshold s ≤ s.wdtAcc + 1 ∧ s.sleeping = false ∧ wdtTick s = setFlag .powerDown false (resetCore s)) := by
  have hthr : watchdogThreshold (s.setWdtAcc (s.wdtAcc + 1)) = watchdogThreshold s := rfl
  unfold wdtTick
  simp only [hthr, State.setWdtAcc_wdtAcc, State.setWdtAcc_sleeping]
  by_cases h : watchdogThreshold s ≤ s.wdtAcc + 1
  · rw [if_pos h]
    cases hs : s.sleeping
    · exact .inr (.inr ⟨h, rfl, rfl⟩)
    · exact .inr (.inl ⟨h, rfl, rfl⟩)
  · rw [if_neg h]
    exact .inl ⟨by omega, rfl⟩

/-- A machine cycle is a Watchdog tick, followed by a Timer0 tick unless the core sleeps after it. -/
theorem machineCycle_cases (s : State) :
    ((wdtTick s).sleeping = true ∧ machineCycle s = wdtTick s) ∨
    ((wdtTick s).sleeping = false ∧ machineCycle s = tmr0Tick (wdtTick s)) := by
  unfold machineCycle
  cases h : (wdtTick s).sleeping <;> simp [h]

/-! ### The step -/

/-- The end of a step: `SetPC`, and the second machine cycle where it was requested. -/
theorem finishStep_cases (s : State) :
    (s.twoCycle = false ∧ finishStep s = (setPC s.pcNext s).setCycles 1) ∨
    (s.twoCycle = true ∧ finishStep s = ((machineCycle (setPC s.pcNext s)).setTwoCycle false).setCycles 2) := by
  have h2 : (setPC s.pcNext s).twoCycle = s.twoCycle := by simp [setPC]
  unfold finishStep
  simp only [h2]
  cases h : s.twoCycle <;> simp

/-- Everything a step that answers a next state can be: the idle step of a faulted core, an interrupt entry, the cycle of a
sleeping core, an unmatched word, or an instruction. -/
theorem step_eq_next {s t : State} (h : step s = .next t) : s.params.prog ≠ [] ∧
    ((s.fault.isSome = true ∧ t = s.setCycles 0) ∨
     (s.fault = none ∧ intPending s = true ∧ ∃ u, intEntry s = .next u ∧ t = u.setCycles 1) ∨
     (s.fault = none ∧ intPending s = false ∧ (machineCycle s).sleeping = true ∧ t = (machineCycle s).setCycles 1) ∨
     (s.fault = none ∧ intPending s = false ∧ (machineCycle s).sleeping = false ∧
       ∃ word u, progRead (machineCycle s).pc (machineCycle s) = .ok word ∧
         execWord word (advance (machineCycle s)) = .next u ∧ t = finishStep u)) := by
  unfold step stepCore at h
  split at h
  · cases h
  · rename_i hp
    refine ⟨hp, ?_⟩
    unfold stepLoaded at h
    split at h
    · rename_i hf
      exact .inl ⟨hf, by simpa using h.symm⟩
    · rename_i hf
      have hf : s.fault = none := by simpa using hf
      split at h
      · rename_i hi
        refine .inr (.inl ⟨hf, hi, ?_⟩)
        unfold interruptStep at h
        obtain ⟨u, hu, ht⟩ := andThen_eq_next.1 h
        exact ⟨u, hu, by simpa using ht.symm⟩
      · rename_i hi
        have hi : intPending s = false := by simpa using hi
        unfold runningStep at h
        simp only at h
        split at h
        · rename_i hs
          exact .inr (.inr (.inl ⟨hf, hi, hs, by simpa using h.symm⟩))
        · rename_i hs
          refine .inr (.inr (.inr ⟨hf, hi, by simpa using hs, ?_⟩))
          unfold runInstruction at h
          split at h
          · exact absurd h (raise_ne_next _ _ _)
          · rename_i word hw
            obtain ⟨u, hu, ht⟩ := andThen_eq_next.1 h
            exact ⟨word, u, hw, hu, by simpa using ht.symm⟩

/-- A word that completes is an unmatched one that does nothing, or an instruction that completes. -/
theorem execWord_eq_next {word : ProgWord} {s t : State} :
    execWord word s = .next t ↔
      (∃ e, decode word = .error e ∧ t = s) ∨ ∃ i, decode word = .ok i ∧ exec i s = .next t := by
  unfold execWord
  cases decode word <;> simp [eq_comm]

end Sys2Proof.Machine
end

