-- ==== Sys2Proof/Laws/Canonical.lean ====
section
/-! SUPPORT. Every operation of the machine that writes memory keeps both memories in canonical form. -/

namespace Sys2Proof.Machine

/-- Both memories are in canonical form. -/
abbrev State.Canonical (s : State) : Prop := Memory.wf .registerFile s.cells ∧ Memory.wf .eeprom s.ee

/-- A state with the same memories is as canonical. -/
theorem State.Canonical.congr {s t : State} (h : s.Canonical) (hc : t.cells = s.cells) (he : t.ee = s.ee) : t.Canonical := by
  unfold State.Canonical
  rw [hc, he]
  exact h

theorem State.Canonical.setCell {s : State} (h : s.Canonical) (p v : Byte) : (s.setCell p v).Canonical :=
  ⟨Memory.wf_write v h.1 p.isLt, h.2⟩

theorem State.Canonical.setEeByte {s : State} (h : s.Canonical) {i : Byte} (v : Byte) (hi : i.toNat < 64) :
    (s.setEeByte i v).Canonical := ⟨h.1, Memory.wf_write v h.2 hi⟩

theorem State.Canonical.writeAliasedBit {s : State} (h : s.Canonical) (p : Byte) (n : Nat) (b : Bool) :
    (writeAliasedBit p n b s).Canonical := (h.setCell ..).setCell ..

theorem State.Canonical.mirrorPcl {s : State} (h : s.Canonical) (v : Byte) : (mirrorPcl v s).Canonical :=
  (h.setCell ..).setCell ..

theorem State.Canonical.setPC {s : State} (h : s.Canonical) (v : ProgAddr) : (setPC v s).Canonical :=
  State.Canonical.mirrorPcl (h.congr (t := (s.setPcRaw v).setPcNext v) (by simp) (by simp)) _

theorem State.Canonical.genericWrite {s : State} (h : s.Canonical) (l : List Byte) (v : Byte) :
    (genericWrite l v s).Canonical := by
  induction l generalizing s with
  | nil => exact h
  | cons q l ih => exact ih (h.setCell q v)

theorem State.Canonical.writeEffects {s : State} (h : s.Canonical) (p v : Byte) : (writeEffects p v s).Canonical := by
  rcases writeEffects_cases p v s with ⟨_, _, e⟩ | ⟨_, e⟩ | ⟨_, e⟩ | ⟨_, _, _, e⟩ <;> rw [e]
  · exact h.congr (by simp) (by simp)
  · exact h.congr (by simp) (by simp)
  · unfold portbChange
    split
    · exact h.writeAliasedBit ..
    · split
      · exact h.writeAliasedBit ..
      · exact h
  · exact h

/-- A write that completes keeps both memories in canonical form. -/
theorem State.Canonical.memWrite {s t : State} {a v : Byte} (h : s.Canonical) (hw : memWrite a v s = .next t) :
    t.Canonical := by
  rcases memWrite_eq_next hw with ⟨_, rfl⟩ | ⟨_, u, hu, ht⟩
  · exact h
  · have hcan : u.Canonical := hu ▸ (h.writeEffects ..).genericWrite ..
    rcases ht with ⟨rfl, _⟩ | ⟨_, _, _, hi, rfl⟩
    · exact hcan
    · exact (hcan.setEeByte _ hi).setCell ..

theorem State.Canonical.tmr0Inc {s : State} (h : s.Canonical) : (tmr0Inc s).Canonical := by
  unfold Machine.tmr0Inc
  simp only
  split
  · exact (h.setCell ..).writeAliasedBit ..
  · exact h.setCell ..

theorem State.Canonical.tmr0Tick {s : State} (h : s.Canonical) : (tmr0Tick s).Canonical := by
  obtain ⟨u, b, e, hu⟩ := tmr0Tick_cases s
  have hcan : u.Canonical := by
    rcases hu with ⟨_, rfl⟩ | rfl | rfl | ⟨_, rfl⟩ | rfl
    · exact h.congr (by simp) (by simp)
    · exact h.tmr0Inc
    · exact State.Canonical.tmr0Inc (h.congr (t := s.setPrescCount 0) (by simp) (by simp))
    · exact h.congr (by simp) (by simp)
    · exact h
  rw [e]
  exact hcan.congr (by simp) (by simp)

theorem State.Canonical.resetCore {s : State} (h : s.Canonical) : (resetCore s).Canonical := ⟨Memory.wf_nil _, h.2⟩

theorem State.Canonical.wdtTick {s : State} (h : s.Canonical) : (wdtTick s).Canonical := by
  rcases wdtTick_cases s with ⟨_, e⟩ | ⟨_, _, e⟩ | ⟨_, _, e⟩ <;> rw [e]
  · exact h.congr (by simp) (by simp)
  · exact State.Canonical.setPC (h.congr (t := (s.setSleeping false).setWdtAcc 0) (by simp) (by simp)) _
  · exact h.resetCore.writeAliasedBit ..

/-- A machine cycle keeps both memories in canonical form. -/
theorem State.Canonical.machineCycle {s : State} (h : s.Canonical) : (machineCycle s).Canonical := by
  rcases machineCycle_cases s with ⟨_, e⟩ | ⟨_, e⟩ <;> rw [e]
  · exact h.wdtTick
  · exact h.wdtTick.tmr0Tick

/-- The reset state's memories are in canonical form. -/
theorem reset_canonical : State.reset.Canonical := ⟨Memory.wf_nil _, Memory.wf_nil _⟩

end Sys2Proof.Machine
end

