-- ==== Sys2Proof/Laws/PerInstr.lean ====
section
/-! SUPPORT. For every instruction: the word the encoder writes from the formats of R84 is spelled by a row of the opcode
map R86, and the operands R85 takes from that word are the instruction's own. -/

namespace Sys2Proof

/-! ### The fields of an encoded word -/

theorem fieldF_encodeFD (op : BitVec 6) (f : FileAddr) (d : Dest) : fieldF (encodeFD op f d) = f := by
  apply BitVec.eq_of_getLsbD_eq
  intro i hi
  show (BitVec.extractLsb' 0 7 (op ++ d.bit ++ f : BitVec (6 + 1 + 7))).getLsbD i = _
  simp only [BitVec.getLsbD_extractLsb', BitVec.getLsbD_append, hi, Nat.zero_add, decide_true, Bool.true_and, if_true]

theorem fieldD_encodeFD (op : BitVec 6) (f : FileAddr) (d : Dest) : fieldD (encodeFD op f d) = d := by
  show (if (op ++ d.bit ++ f : BitVec (6 + 1 + 7)).getLsbD 7 = true then Dest.f else Dest.w) = d
  simp only [BitVec.getLsbD_append]
  cases d <;> rfl

theorem fieldF_encodeF (op : BitVec 6) (f : FileAddr) : fieldF (encodeF op f) = f := fieldF_encodeFD op f .f

theorem fieldF_encodeBit (op : BitVec 4) (f : FileAddr) (b : BitIndex) : fieldF (encodeBit op f b) = f := by
  apply BitVec.eq_of_getLsbD_eq
  intro i hi
  show (BitVec.extractLsb' 0 7 (op ++ b ++ f : BitVec (4 + 3 + 7))).getLsbD i = _
  simp only [BitVec.getLsbD_extractLsb', BitVec.getLsbD_append, hi, Nat.zero_add, decide_true, Bool.true_and, if_true]

theorem fieldB_encodeBit (op : BitVec 4) (f : FileAddr) (b : BitIndex) : fieldB (encodeBit op f b) = b := by
  apply BitVec.eq_of_getLsbD_eq
  intro i hi
  show (BitVec.extractLsb' 7 3 (op ++ b ++ f : BitVec (4 + 3 + 7))).getLsbD i = _
  simp only [BitVec.getLsbD_extractLsb', BitVec.getLsbD_append, hi, decide_true, Bool.true_and]
  rw [if_neg (by omega), if_pos (by omega), show 7 + i - 7 = i by omega]

theorem fieldK8_encodeLit (op : BitVec 6) (k : Byte) : fieldK8 (encodeLit op k) = k := by
  apply BitVec.eq_of_getLsbD_eq
  intro i hi
  show (BitVec.extractLsb' 0 8 (op ++ k : BitVec (6 + 8))).getLsbD i = _
  simp only [BitVec.getLsbD_extractLsb', BitVec.getLsbD_append, hi, Nat.zero_add, decide_true, Bool.true_and, if_true]

theorem fieldK11_encodeCtl (op : BitVec 3) (k : PageAddr) : fieldK11 (encodeCtl op k) = k := by
  apply BitVec.eq_of_getLsbD_eq
  intro i hi
  show (BitVec.extractLsb' 0 11 (op ++ k : BitVec (3 + 11))).getLsbD i = _
  simp only [BitVec.getLsbD_extractLsb', BitVec.getLsbD_append, hi, Nat.zero_add, decide_true, Bool.true_and, if_true]

/-! ### The opcode bits of an encoded word -/

theorem encodeLit_masked (m op : BitVec 6) (k : Byte) :
    encodeLit op k &&& (m ++ 0#8 : BitVec (6 + 8)) = ((m &&& op) ++ 0#8 : BitVec (6 + 8)) := by
  show (op ++ k : BitVec (6 + 8)) &&& (m ++ 0#8) = _
  rw [BitVec.and_append, BitVec.and_zero, BitVec.and_comm]

theorem encodeFD_eq (op : BitVec 6) (f : FileAddr) (d : Dest) : encodeFD op f d = encodeLit op (d.bit ++ f : BitVec (1 + 7)) := by
  show (op ++ d.bit ++ f : BitVec (6 + 1 + 7)) = (op ++ (d.bit ++ f) : BitVec (6 + (1 + 7)))
  exact BitVec.append_assoc ..

/-- The opcode bits of a `BYTE_FD` or `LIT` word, for a row mask that covers some of bits 13..8. -/
theorem lit_spells {mask value : ProgWord} (m op : BitVec 6) (k : Byte) {build : ProgWord → Instr}
    (hm : mask = (m ++ 0#8 : BitVec (6 + 8))) (hv : value = ((m &&& op) ++ 0#8 : BitVec (6 + 8))) :
    (OpcodeRow.mk mask value build).spells (encodeLit op k) = true := by
  show (_ &&& mask == value) = true
  rw [hm, hv, encodeLit_masked]
  exact beq_self_eq_true _

theorem fd_spells {value : ProgWord} (op : BitVec 6) (f : FileAddr) (d : Dest) {i : FileAddr → Dest → Instr}
    (hv : value = ((0x3F#6 &&& op) ++ 0#8 : BitVec (6 + 8))) : (rowFD value i).spells (encodeFD op f d) = true := by
  rw [encodeFD_eq]
  exact lit_spells 0x3F#6 op _ (by decide) hv

theorem f_spells {value : ProgWord} (op : BitVec 6) (f : FileAddr) {i : FileAddr → Instr}
    (hv : value = (op ++ 1#1 ++ 0#7 : BitVec (6 + 1 + 7))) : (rowF value i).spells (encodeF op f) = true := by
  show ((op ++ 1#1 ++ f : BitVec (6 + 1 + 7)) &&& 0x3F80#14 == value) = true
  rw [hv, show (0x3F80#14) = (0x7F#7 ++ 0#7 : BitVec (7 + 7)) by decide]
  show ((op ++ 1#1 ++ f : BitVec (7 + 7)) &&& (0x7F#7 ++ 0#7) == _) = true
  rw [BitVec.and_append, BitVec.and_zero, show (0x7F#7) = BitVec.allOnes 7 by decide, BitVec.and_allOnes]
  exact beq_self_eq_true _

theorem bit_spells {value : ProgWord} (op : BitVec 4) (f : FileAddr) (b : BitIndex) {i : FileAddr → BitIndex → Instr}
    (hv : value = (op ++ 0#10 : BitVec (4 + 10))) : (rowBit value i).spells (encodeBit op f b) = true := by
  show ((op ++ b ++ f : BitVec (4 + 3 + 7)) &&& 0x3C00#14 == value) = true
  rw [hv, show (0x3C00#14) = (0xF#4 ++ 0#10 : BitVec (4 + 10)) by decide]
  have : (op ++ b ++ f : BitVec (4 + 3 + 7)) = (op ++ (b ++ f) : BitVec (4 + (3 + 7))) := BitVec.append_assoc ..
  rw [this]
  show ((op ++ (b ++ f) : BitVec (4 + 10)) &&& (0xF#4 ++ 0#10) == _) = true
  rw [BitVec.and_append, BitVec.and_zero, show (0xF#4) = BitVec.allOnes 4 by decide, BitVec.and_allOnes]
  exact beq_self_eq_true _

theorem ctl_spells {value : ProgWord} (op : BitVec 3) (k : PageAddr) {i : PageAddr → Instr}
    (hv : value = (op ++ 0#11 : BitVec (3 + 11))) : (rowCtl value i).spells (encodeCtl op k) = true := by
  show ((op ++ k : BitVec (3 + 11)) &&& 0x3800#14 == value) = true
  rw [hv, show (0x3800#14) = (0x7#3 ++ 0#11 : BitVec (3 + 11)) by decide]
  show ((op ++ k : BitVec (3 + 11)) &&& (0x7#3 ++ 0#11) == _) = true
  rw [BitVec.and_append, BitVec.and_zero, show (0x7#3) = BitVec.allOnes 3 by decide, BitVec.and_allOnes]
  exact beq_self_eq_true _

/-! ### Fixed words -/

theorem fixed_spells {mask value w : ProgWord} {i : Instr} (h : w &&& mask = value) : (rowFixed mask value i).spells w = true := by
  show (w &&& mask == value) = true
  rw [h]
  exact beq_self_eq_true _

end Sys2Proof

namespace Sys2Proof.Laws.Encoding

/-- A row of R86 spells the instruction's word and reads the instruction from it. -/
def Statement (i : Instr) : Prop := ∃ r ∈ opcodeRows, r.spells (encode i) = true ∧ r.build (encode i) = i

/-- The row is found at its index in the spec's order. -/
theorem of_row {i : Instr} (n : Nat) {r : OpcodeRow} (h : opcodeRows[n]? = some r) (hs : r.spells (encode i) = true)
    (hb : r.build (encode i) = i) : Statement i := ⟨r, List.mem_of_getElem? h, hs, hb⟩

theorem of_fd (n : Nat) (op : BitVec 6) {value : ProgWord} (i : FileAddr → Dest → Instr) (f : FileAddr) (d : Dest)
    (h : opcodeRows[n]? = some (rowFD value i)) (he : encode (i f d) = encodeFD op f d)
    (hv : value = ((0x3F#6 &&& op) ++ 0#8 : BitVec (6 + 8))) : Statement (i f d) := by
  refine of_row n h (he ▸ fd_spells op f d hv) ?_
  show i (fieldF _) (fieldD _) = _
  rw [he, fieldF_encodeFD, fieldD_encodeFD]

theorem of_bit (n : Nat) (op : BitVec 4) {value : ProgWord} (i : FileAddr → BitIndex → Instr) (f : FileAddr)
    (b : BitIndex) (h : opcodeRows[n]? = some (rowBit value i)) (he : encode (i f b) = encodeBit op f b)
    (hv : value = (op ++ 0#10 : BitVec (4 + 10))) : Statement (i f b) := by
  refine of_row n h (he ▸ bit_spells op f b hv) ?_
  show i (fieldF _) (fieldB _) = _
  rw [he, fieldF_encodeBit, fieldB_encodeBit]

theorem of_f (n : Nat) (op : BitVec 6) {value : ProgWord} (i : FileAddr → Instr) (f : FileAddr)
    (h : opcodeRows[n]? = some (rowF value i)) (he : encode (i f) = encodeF op f)
    (hv : value = (op ++ 1#1 ++ 0#7 : BitVec (6 + 1 + 7))) : Statement (i f) := by
  refine of_row n h (he ▸ f_spells op f hv) ?_
  show i (fieldF _) = _
  rw [he, fieldF_encodeF]

theorem of_lit (n : Nat) (m op : BitVec 6) {mask value : ProgWord} (i : Byte → Instr) (k : Byte)
    (h : opcodeRows[n]? = some (rowLit mask value i)) (he : encode (i k) = encodeLit op k)
    (hm : mask = (m ++ 0#8 : BitVec (6 + 8))) (hv : value = ((m &&& op) ++ 0#8 : BitVec (6 + 8))) :
    Statement (i k) := by
  refine of_row n h (he ▸ lit_spells m op k hm hv) ?_
  show i (fieldK8 _) = _
  rw [he, fieldK8_encodeLit]

theorem of_ctl (n : Nat) (op : BitVec 3) {value : ProgWord} (i : PageAddr → Instr) (k : PageAddr)
    (h : opcodeRows[n]? = some (rowCtl value i)) (he : encode (i k) = encodeCtl op k)
    (hv : value = (op ++ 0#11 : BitVec (3 + 11))) : Statement (i k) := by
  refine of_row n h (he ▸ ctl_spells op k hv) ?_
  show i (fieldK11 _) = _
  rw [he, fieldK11_encodeCtl]

/-! ### One lemma per constructor -/

theorem addwf (f : FileAddr) (d : Dest) : Statement (.addwf f d) := of_fd 0 0b000111 .addwf f d rfl rfl (by decide)
theorem subwf (f : FileAddr) (d : Dest) : Statement (.subwf f d) := of_fd 1 0b000010 .subwf f d rfl rfl (by decide)
theorem andwf (f : FileAddr) (d : Dest) : Statement (.andwf f d) := of_fd 2 0b000101 .andwf f d rfl rfl (by decide)
theorem iorwf (f : FileAddr) (d : Dest) : Statement (.iorwf f d) := of_fd 3 0b000100 .iorwf f d rfl rfl (by decide)
theorem xorwf (f : FileAddr) (d : Dest) : Statement (.xorwf f d) := of_fd 4 0b000110 .xorwf f d rfl rfl (by decide)
theorem comf (f : FileAddr) (d : Dest) : Statement (.comf f d) := of_fd 5 0b001001 .comf f d rfl rfl (by decide)
theorem movf (f : FileAddr) (d : Dest) : Statement (.movf f d) := of_fd 6 0b001000 .movf f d rfl rfl (by decide)
theorem incf (f : FileAddr) (d : Dest) : Statement (.incf f d) := of_fd 7 0b001010 .incf f d rfl rfl (by decide)
theorem decf (f : FileAddr) (d : Dest) : Statement (.decf f d) := of_fd 8 0b000011 .decf f d rfl rfl (by decide)
theorem incfsz (f : FileAddr) (d : Dest) : Statement (.incfsz f d) := of_fd 9 0b001111 .incfsz f d rfl rfl (by decide)
theorem decfsz (f : FileAddr) (d : Dest) : Statement (.decfsz f d) := of_fd 10 0b001011 .decfsz f d rfl rfl (by decide)
theorem bcf (f : FileAddr) (b : BitIndex) : Statement (.bcf f b) := of_bit 11 0b0100 .bcf f b rfl rfl (by decide)
theorem bsf (f : FileAddr) (b : BitIndex) : Statement (.bsf f b) := of_bit 12 0b0101 .bsf f b rfl rfl (by decide)
theorem btfsc (f : FileAddr) (b : BitIndex) : Statement (.btfsc f b) := of_bit 13 0b0110 .btfsc f b rfl rfl (by decide)
theorem btfss (f : FileAddr) (b : BitIndex) : Statement (.btfss f b) := of_bit 14 0b0111 .btfss f b rfl rfl (by decide)
theorem rlf (f : FileAddr) (d : Dest) : Statement (.rlf f d) := of_fd 15 0b001101 .rlf f d rfl rfl (by decide)
theorem rrf (f : FileAddr) (d : Dest) : Statement (.rrf f d) := of_fd 16 0b001100 .rrf f d rfl rfl (by decide)
theorem movwf (f : FileAddr) : Statement (.movwf f) := of_f 17 0b000000 .movwf f rfl rfl (by decide)
theorem clrf (f : FileAddr) : Statement (.clrf f) := of_f 18 0b000001 .clrf f rfl rfl (by decide)
theorem clrw : Statement .clrw := of_row 19 rfl (fixed_spells (by decide)) rfl
theorem swapf (f : FileAddr) (d : Dest) : Statement (.swapf f d) := of_fd 20 0b001110 .swapf f d rfl rfl (by decide)
theorem addlw (k : Byte) : Statement (.addlw k) := of_lit 21 0x3E 0b111110 .addlw k rfl rfl (by decide) (by decide)
theorem sublw (k : Byte) : Statement (.sublw k) := of_lit 22 0x3E 0b111100 .sublw k rfl rfl (by decide) (by decide)
theorem andlw (k : Byte) : Statement (.andlw k) := of_lit 23 0x3F 0b111001 .andlw k rfl rfl (by decide) (by decide)
theorem iorlw (k : Byte) : Statement (.iorlw k) := of_lit 24 0x3F 0b111000 .iorlw k rfl rfl (by decide) (by decide)
theorem xorlw (k : Byte) : Statement (.xorlw k) := of_lit 25 0x3F 0b111010 .xorlw k rfl rfl (by decide) (by decide)
theorem movlw (k : Byte) : Statement (.movlw k) := of_lit 26 0x3C 0b110000 .movlw k rfl rfl (by decide) (by decide)
theorem goto (k : PageAddr) : Statement (.goto k) := of_ctl 27 0b101 .goto k rfl rfl (by decide)
theorem call (k : PageAddr) : Statement (.call k) := of_ctl 28 0b100 .call k rfl rfl (by decide)
theorem ret : Statement .ret := of_row 29 rfl (fixed_spells (by decide)) rfl
theorem retlw (k : Byte) : Statement (.retlw k) := of_lit 30 0x3C 0b110100 .retlw k rfl rfl (by decide) (by decide)
theorem retfie : Statement .retfie := of_row 31 rfl (fixed_spells (by decide)) rfl
theorem nop : Statement .nop := of_row 32 rfl (fixed_spells (by decide)) rfl
theorem clrwdt : Statement .clrwdt := of_row 33 rfl (fixed_spells (by decide)) rfl
theorem sleep : Statement .sleep := of_row 34 rfl (fixed_spells (by decide)) rfl

end Sys2Proof.Laws.Encoding
end

