-- ==== Sys2Proof/WellFormed.lean ====
section
/-! DEFINITION. What a well-formed input of the machine is.

An `Instr` has no check: the types of its operands are the widths of the fields they are encoded in
(30_encoding.md R85), so a term that does not fit its encoding cannot be written. What can be ill formed is
the chip's parameters (00_scope.md R9): the checks are `Params.progLoaded`, `Params.progFits` and
`Params.wdtBasePositive`. -/

namespace Sys2Proof

/-- `PROG_LEN` is at least 1: a program is loaded (R9, R191; 93_implementation_defined.md U12). -/
def Params.progLoaded (p : Params) : Bool := decide (1 ≤ p.prog.length)

/-- `PROG_LEN` is at most 8192, the range of the 13-bit PC (R9). -/
def Params.progFits (p : Params) : Bool := decide (p.prog.length ≤ Config.maxProgLen)

/-- `WDT_BASE_CYCLES` is at least 1 (R9). -/
def Params.wdtBasePositive (p : Params) : Bool := decide (1 ≤ p.wdtBaseCycles)

/-- The parameters are within R9's ranges. -/
def Params.wf (p : Params) : Bool := p.progLoaded && p.progFits && p.wdtBasePositive

end Sys2Proof
end

