-- ==== Sys2Proof/Tests/Slice0.lean ====
section
/-! SUPPORT. Tests: the well-formedness checks on ill-formed input, every constructor's decoding from a word written out
from the spec's pattern, one-step vectors of 95_test_vectors.md, and for every statement a state and operands that meet
its hypotheses. Expected values come from the spec's tables, named at each test. -/

namespace Sys2Proof.Tests

open Sys2Proof Sys2Proof.Machine

/-! ### Well-formedness: an ill-formed term for each check -/

/-- Parameters with `n` NOP words. -/
def nops (n : Nat) : Params := { prog := List.replicate n 0x0000#16, wdtBaseCycles := 1000, clrwdtClearsPs := false }

theorem test_wf_refuses_an_empty_program : (nops 0).progLoaded = false ∧ (nops 0).wf = false := by decide

theorem nops_length (n : Nat) : (nops n).prog.length = n := List.length_replicate

theorem test_wf_refuses_a_program_past_8192_words : (nops 8193).progFits = false ∧ (nops 8192).progFits = true := by
  unfold Params.progFits
  rw [nops_length, nops_length]
  decide

theorem test_wf_refuses_a_zero_watchdog_base :
    ({ nops 1 with wdtBaseCycles := 0 } : Params).wdtBasePositive = false ∧
      ({ nops 1 with wdtBaseCycles := 0 } : Params).wf = false := by decide

theorem test_wf_accepts_one_word : (nops 1).wf = true := by decide

/-! ### Decoding: every constructor, from the pattern of R86 written out bit by bit -/

theorem test_decode_file_alu :
    decodeTableWord 16 0b00011110100000 = some (.addwf 0x20 .f) ∧
    decodeTableWord 16 0b00001000100000 = some (.subwf 0x20 .w) ∧
    decodeTableWord 16 0b00010111111111 = some (.andwf 0x7F .f) ∧
    decodeTableWord 16 0b00010000000001 = some (.iorwf 0x01 .w) ∧
    decodeTableWord 16 0b00011010000000 = some (.xorwf 0x00 .f) ∧
    decodeTableWord 16 0b00100101000000 = some (.comf 0x40 .w) ∧
    decodeTableWord 16 0b00100010001000 = some (.movf 0x08 .f) := by decide

theorem test_decode_inc_dec_bit :
    decodeTableWord 16 0b00101010100000 = some (.incf 0x20 .f) ∧
    decodeTableWord 16 0b00001100100000 = some (.decf 0x20 .w) ∧
    decodeTableWord 16 0b00111110100000 = some (.incfsz 0x20 .f) ∧
    decodeTableWord 16 0b00101100100000 = some (.decfsz 0x20 .w) ∧
    decodeTableWord 16 0b01001010000011 = some (.bcf 0x03 5) ∧
    decodeTableWord 16 0b01011010000011 = some (.bsf 0x03 5) ∧
    decodeTableWord 16 0b01100100000011 = some (.btfsc 0x03 2) ∧
    decodeTableWord 16 0b01111000000101 = some (.btfss 0x05 4) := by decide

theorem test_decode_rotate_move :
    decodeTableWord 16 0b00110110100000 = some (.rlf 0x20 .f) ∧
    decodeTableWord 16 0b00110000100000 = some (.rrf 0x20 .w) ∧
    decodeTableWord 16 0b00000010100000 = some (.movwf 0x20) ∧
    decodeTableWord 16 0b00000110100000 = some (.clrf 0x20) ∧
    decodeTableWord 16 0b00000101111111 = some .clrw ∧
    decodeTableWord 16 0b00111010100000 = some (.swapf 0x20 .f) := by decide

theorem test_decode_literal :
    decodeTableWord 16 0b11111100000001 = some (.addlw 0x01) ∧
    decodeTableWord 16 0b11110000010000 = some (.sublw 0x10) ∧
    decodeTableWord 16 0b11100100001111 = some (.andlw 0x0F) ∧
    decodeTableWord 16 0b11100000001010 = some (.iorlw 0x0A) ∧
    decodeTableWord 16 0b11101001011010 = some (.xorlw 0x5A) ∧
    decodeTableWord 16 0b11001110100101 = some (.movlw 0xA5) := by decide

theorem test_decode_control_misc :
    decodeTableWord 16 0b10100000000000 = some (.goto 0) ∧
    decodeTableWord 16 0b10011111111111 = some (.call 0x7FF) ∧
    decodeTableWord 16 0b00000000001000 = some .ret ∧
    decodeTableWord 16 0b11011101000010 = some (.retlw 0x42) ∧
    decodeTableWord 16 0b00000000001001 = some .retfie ∧
    decodeTableWord 16 0b00000001100000 = some .nop ∧
    decodeTableWord 16 0b00000001100100 = some .clrwdt ∧
    decodeTableWord 16 0b00000001100011 = some .sleep := by decide

/-- R69: bits 15 and 14 of a stored word are ignored. -/
theorem test_decode_ignores_bits_15_and_14 : decodeTableWord 16 0xE800 = some (.goto 0) := by decide

/-- R89: the ends of the seven unmatched ranges, and the matched words beside them (95 §2.8). -/
theorem test_decode_unmatched_range_ends :
    [0x0001, 0x0007, 0x000A, 0x001F, 0x0021, 0x003F, 0x0041, 0x005F, 0x0061, 0x0062, 0x0065, 0x007F, 0x3B00, 0x3BFF].all
        (fun w => (decodeTableWord 16 w).isNone) = true ∧
      [0x0000, 0x0008, 0x0009, 0x0020, 0x0040, 0x0060, 0x0063, 0x0064, 0x0080, 0x3AFF, 0x3C00].all
        (fun w => (decodeTableWord 16 w).isSome) = true := by decide

/-! ### One step: the vectors of 95_test_vectors.md -/

/-- The start state of the vectors: the word at 0x010, PC there, everything else as after reset. -/
def vec (word : StoredWord) : State :=
  setPC 0x010 (State.powerOn { nops 1 with prog := placeWord [] 0x10 word } [])

/-- Presets an aliased register in both of its cells. -/
def pre (p v : Byte) (s : State) : State := (s.setCell p v).setCell (p ||| 0x80) v

/-- The start of a vector: the word, W, STATUS and `cell[0x20]`. -/
def start (word : StoredWord) (w status c20 : Byte) : State := pre 0x20 c20 (pre 0x03 status ((vec word).setW w))

/-- The next state, if there is one. -/
def nextOf : Out → Option State
  | .next s => some s
  | .fault _ => none
  | .refused _ => none

/-- The fault, if there is one. -/
def faultOf : Out → Option Fault
  | .next _ => none
  | .fault r => some r
  | .refused _ => none

/-- W, `cell[0x20]`, STATUS, PC and the cycles after a step. -/
def seen (s : State) : Option (Byte × Byte × Byte × ProgAddr × Nat) :=
  (nextOf (step s)).map fun t => (t.w, t.cell 0x20, t.cell 0x03, t.pc, t.cycles)

/-- Three cells after a step. -/
def cells (s : State) (a b c : Byte) : Option (Byte × Byte × Byte) :=
  (nextOf (step s)).map fun t => (t.cell a, t.cell b, t.cell c)

/-! 95 E1, E2, E9 and §2.1 to §2.4 -/

theorem test_addwf_wraps : seen (start 0x0720 0xFF 0x18 0x01) = some (0x00, 0x01, 0x1F, 0x011, 1) := by decide
theorem test_addwf_to_file : seen (start 0x07A0 0x0F 0x18 0x01) = some (0x0F, 0x10, 0x1A, 0x011, 1) := by decide
theorem test_subwf_borrow : seen (start 0x0220 0x05 0x18 0x03) = some (0xFE, 0x03, 0x18, 0x011, 1) := by decide
theorem test_subwf_digit_borrow_only : seen (start 0x0220 0x01 0x18 0x10) = some (0x0F, 0x10, 0x19, 0x011, 1) := by decide
theorem test_andwf_keeps_c_dc : seen (start 0x0520 0xF0 0x1B 0x0F) = some (0x00, 0x0F, 0x1F, 0x011, 1) := by decide
theorem test_iorwf_to_file : seen (start 0x04A0 0x50 0x1B 0x0A) = some (0x50, 0x5A, 0x1B, 0x011, 1) := by decide
theorem test_xorwf_zero : seen (start 0x0620 0xFF 0x1B 0xFF) = some (0x00, 0xFF, 0x1F, 0x011, 1) := by decide
theorem test_comf_to_file : seen (start 0x09A0 0x33 0x1B 0x5A) = some (0x33, 0xA5, 0x1B, 0x011, 1) := by decide
theorem test_movf_sets_z : seen (start 0x0820 0x33 0x1B 0x00) = some (0x00, 0x00, 0x1F, 0x011, 1) := by decide
theorem test_incf_wraps : seen (start 0x0AA0 0x00 0x18 0xFF) = some (0x00, 0x00, 0x1C, 0x011, 1) := by decide
theorem test_decf_wraps : seen (start 0x03A0 0x00 0x18 0x00) = some (0x00, 0xFF, 0x18, 0x011, 1) := by decide
theorem test_incfsz_skips : seen (start 0x0FA0 0x00 0x18 0xFF) = some (0x00, 0x00, 0x18, 0x012, 2) := by decide
theorem test_incfsz_does_not_skip : seen (start 0x0FA0 0x00 0x18 0x05) = some (0x00, 0x06, 0x18, 0x011, 1) := by decide
theorem test_decfsz_skips_to_w : seen (start 0x0B20 0x00 0x18 0x01) = some (0x00, 0x01, 0x18, 0x012, 2) := by decide
theorem test_decfsz_does_not_skip : seen (start 0x0BA0 0x00 0x18 0x00) = some (0x00, 0xFF, 0x18, 0x011, 1) := by decide
theorem test_bcf_bit7 : seen (start 0x13A0 0x00 0x18 0xFF) = some (0x00, 0x7F, 0x18, 0x011, 1) := by decide
theorem test_bcf_selects_bank_0 : seen (start 0x1283 0x00 0x38 0x00) = some (0x00, 0x00, 0x18, 0x011, 1) := by decide
theorem test_bsf_selects_bank_1 : seen (start 0x1683 0x00 0x18 0x00) = some (0x00, 0x00, 0x38, 0x011, 1) := by decide
theorem test_btfsc_skips : seen (start 0x1903 0x00 0x18 0x00) = some (0x00, 0x00, 0x18, 0x012, 2) := by decide
theorem test_btfsc_does_not_skip : seen (start 0x1903 0x00 0x1C 0x00) = some (0x00, 0x00, 0x1C, 0x011, 1) := by decide
theorem test_btfss_skips : seen (start 0x1C03 0x00 0x19 0x00) = some (0x00, 0x00, 0x19, 0x012, 2) := by decide
theorem test_btfss_does_not_skip : seen (start 0x1C03 0x00 0x18 0x00) = some (0x00, 0x00, 0x18, 0x011, 1) := by decide
theorem test_rlf_to_w : seen (start 0x0D20 0x00 0x19 0x55) = some (0xAB, 0x55, 0x18, 0x011, 1) := by decide
theorem test_rlf_no_zero_flag : seen (start 0x0DA0 0x00 0x18 0x80) = some (0x00, 0x00, 0x19, 0x011, 1) := by decide
theorem test_rrf_carry_in : seen (start 0x0CA0 0x00 0x19 0x01) = some (0x00, 0x80, 0x19, 0x011, 1) := by decide
theorem test_rrf_to_w : seen (start 0x0C20 0x00 0x18 0xAA) = some (0x55, 0xAA, 0x18, 0x011, 1) := by decide
theorem test_movwf : seen (start 0x00A0 0x5A 0x18 0x00) = some (0x5A, 0x5A, 0x18, 0x011, 1) := by decide
theorem test_clrf : seen (start 0x01A0 0x00 0x18 0x77) = some (0x00, 0x00, 0x1C, 0x011, 1) := by decide
theorem test_clrf_status : seen (start 0x0183 0x00 0x18 0x00) = some (0x00, 0x00, 0x04, 0x011, 1) := by decide
theorem test_clrw : seen (start 0x017F 0x5A 0x18 0x00) = some (0x00, 0x00, 0x1C, 0x011, 1) := by decide
theorem test_swapf : seen (start 0x0EA0 0x00 0x18 0xA5) = some (0x00, 0x5A, 0x18, 0x011, 1) := by decide
theorem test_subwf_status_destination : seen (start 0x0283 0x18 0x18 0x00) = some (0x18, 0x00, 0x07, 0x011, 1) := by decide

/-! 95 §2.5 -/

theorem test_addlw : seen (start 0x3E80 0x80 0x18 0x00) = some (0x00, 0x00, 0x1D, 0x011, 1) := by decide
theorem test_sublw_operand_order : seen (start 0x3C00 0x01 0x18 0x00) = some (0xFF, 0x00, 0x18, 0x011, 1) := by decide
theorem test_sublw : seen (start 0x3C10 0x01 0x18 0x00) = some (0x0F, 0x00, 0x19, 0x011, 1) := by decide
theorem test_andlw : seen (start 0x390F 0x5A 0x1B 0x00) = some (0x0A, 0x00, 0x1B, 0x011, 1) := by decide
theorem test_iorlw : seen (start 0x3800 0x00 0x18 0x00) = some (0x00, 0x00, 0x1C, 0x011, 1) := by decide
theorem test_xorlw : seen (start 0x3AFF 0x0F 0x1C 0x00) = some (0xF0, 0x00, 0x18, 0x011, 1) := by decide
theorem test_movlw_no_zero_flag : seen (start 0x3000 0x77 0x18 0x00) = some (0x00, 0x00, 0x18, 0x011, 1) := by decide

/-! 95 §2.6 and §2.7 -/

theorem test_goto_page : seen (pre 0x0A 0x0F (start 0x2805 0 0x18 0)) = some (0, 0, 0x18, 0x0805, 2) := by decide
theorem test_call : (nextOf (step (vec 0x2020))).map (fun t => (t.pc, t.stack, t.cycles)) = some (0x020, [0x011], 2) := by decide
theorem test_return : (nextOf (step ((vec 0x0008).setStack [0x004]))).map (fun t => (t.pc, t.stack, t.cycles)) =
    some (0x004, [], 2) := by decide
theorem test_retlw : seen ((start 0x3442 0 0x18 0).setStack [0x004]) = some (0x42, 0, 0x18, 0x004, 2) := by decide
theorem test_retlw_underflow_keeps_w :
    (faultOf (step ((vec 0x3700).setW 0x55))).map (fun r => (r.kind, r.left.w, r.left.cycles)) =
      some (.stackUnderflow, 0x55, 0) := by decide
theorem test_retfie : (nextOf (step ((vec 0x0009).setStack [0x023]))).map (fun t => (t.pc, t.cell 0x0B, t.cell 0x8B)) =
    some (0x023, 0x80, 0x80) := by decide
theorem test_nop_spelling : seen (start 0x0060 0x5A 0x18 0) = some (0x5A, 0, 0x18, 0x011, 1) := by decide
theorem test_unmatched_word : seen (start 0x3BFF 0x5A 0x18 0) = some (0x5A, 0, 0x18, 0x011, 1) := by decide
theorem test_clrwdt : (nextOf (step (pre 0x03 0x10 ((vec 0x0064).setWdtAcc 500)))).map (fun t => (t.wdtAcc, t.cell 0x03, t.cell 0x81)) =
    some (0, 0x18, 0xFF) := by decide
theorem test_sleep : (nextOf (step ((vec 0x0063).setWdtAcc 10))).map (fun t => (t.sleeping, t.wdtAcc, t.cell 0x03, t.pc)) =
    some (true, 0, 0x10, 0x010) := by decide

/-! 95 §2.1, §2.3, §2.4, §2.9: the bank resolver, the side effects of a write, the EEPROM -/

theorem test_computed_jump : (nextOf (step (pre 0x0A 0x1D ((vec 0x0782).setW 0x02)))).map (fun t => (t.pc, t.cycles)) =
    some (0x1D13, 1) := by decide
theorem test_skip_after_pcl_write :
    (nextOf (step (setPC 0 (State.powerOn { nops 1 with prog := [0x0B82] } [])))).map (fun t => (t.pc, t.cycles)) =
      some (0x001, 2) := by decide
theorem test_unimplemented_destination : cells ((vec 0x07D0).setW 0x00) 0x50 0xD0 0x03 = some (0, 0, 0x1C) := by decide
theorem test_indirect_irp : seen (pre 0x04 0x05 (start 0x0800 0 0x98 0)) = some (0x1F, 0, 0x98, 0x011, 1) := by decide
theorem test_indirect_rp0 : seen ((pre 0x04 0x05 (start 0x0800 0 0x38 0)).setCell 0x05 0x09) = some (0x1F, 0, 0x38, 0x011, 1) := by decide
theorem test_indirect_once : seen (start 0x0800 0x12 0x18 0) = some (0, 0, 0x1C, 0x011, 1) := by decide
theorem test_trisa_is_private : cells ((start 0x0085 0xC1 0x38 0)) 0x85 0x05 0x03 = some (0xC1, 0x00, 0x38) := by decide
theorem test_portb_edge_before_change : cells ((vec 0x0086).setW 0x11) 0x06 0x0B 0x8B = some (0x11, 0x02, 0x02) := by decide
theorem test_portb_input_change : cells (vec 0x1606) 0x06 0x0B 0x8B = some (0x10, 0x01, 0x01) := by decide
theorem test_portb_output_no_flag : cells ((vec 0x1606).setCell 0x86 0x0F) 0x06 0x0B 0x8B = some (0x10, 0, 0) := by decide
theorem test_eeprom_commit :
    (nextOf (step (((start 0x0088 0x06 0x38 0).setCell 0x09 0x3F).setCell 0x08 0x77))).map (fun t => (t.ee, t.cell 0x88)) =
      some ([(63, 0x77)], 0x14) := by decide
theorem test_eeprom_commit_out_of_range :
    (faultOf (step ((start 0x0088 0x06 0x38 0).setCell 0x09 0x40))).map (fun r => (r.kind, r.left.cell 0x88, r.left.cycles)) =
      some (.eepromAddressOutOfRange 0x40, 0x06, 0) := by decide
theorem test_eedata_read :
    seen (((start 0x0808 0 0x18 0).setCell 0x09 0x03).setCell 0x88 0x01 |>.setEeByte 0x03 0x99) =
      some (0x99, 0, 0x18, 0x011, 1) := by decide
theorem test_eedata_read_out_of_range :
    (faultOf (step (((start 0x0808 0x12 0x18 0).setCell 0x09 0x40).setCell 0x88 0x01))).map
        (fun r => (r.kind, r.left.w, r.left.pc, r.left.wdtAcc, r.left.cell 0x02)) =
      some (.eepromAddressOutOfRange 0x40, 0x12, 0x010, 1, 0x11) := by decide

/-! 95 §2.10, §2.11 and E5: interrupts, Timer0, the Watchdog; 95 §2.6: the fetch -/

theorem test_interrupt_entry :
    (nextOf (step (pre 0x0B 0xA4 (vec 0x0000)))).map (fun t => (t.pc, t.stack, t.cell 0x0B, t.wdtAcc, t.cycles)) =
      some (0x004, [0x010], 0x24, 0, 1) := by decide
theorem test_no_entry_without_gie : seen (pre 0x0B 0x24 (vec 0x0000)) = some (0, 0, 0x18, 0x011, 1) := by decide
theorem test_tmr0_write_waits :
    (nextOf (step (((vec 0x0081).setW 0x10).setCell 0x81 0x08))).map (fun t => (t.cell 0x01, t.tmr0Wait)) = some (0x10, 2) := by decide
theorem test_tmr0_overflow : cells (((vec 0x0000).setCell 0x81 0x08).setCell 0x01 0xFF) 0x01 0x0B 0x8B = some (0, 0x04, 0x04) := by decide
theorem test_tmr0_ratio_256 :
    (nextOf (step (((vec 0x0000).setCell 0x81 0x07).setPrescCount 255))).map (fun t => (t.cell 0x01, t.prescCount)) = some (1, 0) := by decide
theorem test_two_cycles_tick_twice : cells ((vec 0x2810).setCell 0x81 0x08) 0x01 0x0B 0x02 = some (2, 0, 0x10) := by decide
theorem test_watchdog_reset_then_runs_address_0 :
    (nextOf (step (((vec 0x0000).setCell 0x81 0x08).setWdtAcc 999))).map (fun t => (t.pc, t.wdtAcc, t.cell 0x03, t.cell 0x81)) =
      some (0x001, 0, 0x10, 0xFF) := by decide
theorem test_fetch_past_the_program :
    (faultOf (step (setPC 0x012 (vec 0x0000)))).map (fun r => (r.kind, r.left.fault)) =
      some (.pcOutOfRange 0x012, some (.pcOutOfRange 0x012)) := by decide
theorem test_host_port_edge : (hostPortWrite .b 0 true (pre 0x0B 0x90 (vec 0x0000))).cell 0x0B = 0x92 := by decide
/-- R69, R188: a program is loaded from outside; the word placed at PC is the one the next step runs. -/
theorem test_placed_word_runs_after_reset :
    (nextOf (step (State.reset.withFetchWord 16 0x3005))).map (fun t => (t.w, t.pc)) = some (0x05, 0x001) := by decide

/-! ### Witnesses: for every statement with hypotheses, a state and operands that meet them -/

/-- A core with one NOP, right after power-on. -/
def base : State := State.powerOn (nops 1) []

/-- `base` with the given next word. -/
def withWord (w : StoredWord) : State := State.powerOn { nops 1 with prog := [w] } []

/-- `base` with 0x56 at 0x20, W = 0x34 and C = 1. -/
def filled : State := pre 0x20 0x56 (pre 0x03 0x19 (base.setW 0x34))

/-- `base` in bank 1. -/
def bank1 : State := pre 0x03 0x38 base

/-- `base` in bank 1 with the byte 0x77 staged for EEPROM index `i`. -/
def staged (i : Byte) : State := (bank1.setCell 0x08 0x77).setCell 0x09 i

/-- `base` with EEDATA reads on and EEADR = `i`. -/
def reading (i : Byte) : State := (base.setCell 0x88 0x01).setCell 0x09 i

/-- The hypotheses of `FileResult` at one operand and one destination. -/
def FileHyps (s : State) (f : FileAddr) (d : Dest) (a r : Byte) : Prop :=
  memRead (fileAddress f) s = .ok a ∧ ∃ u, Stored d f r s u

theorem test_witness_SpellingsAreDontCareVariants :
    (0x017F#14 &&& ~~~dontCareBits .clrw = encode .clrw) ∧ (0x33A5#14 &&& ~~~dontCareBits (.movlw 0xA5) = encode (.movlw 0xA5)) ∧
      (0x3BFF#14 &&& ~~~dontCareBits .nop ≠ encode .nop) := by decide

theorem test_witness_ResolveDirectAddress :
    ([2, 3, 4, 0x0A, 0x7F] : List FileAddr).all
        (fun f => (f ≠ 0 ∧ (f = 2 ∨ f = 3 ∨ f = 4 ∨ 0x0A ≤ f.toNat)) ∧ (resolve (fileAddress f) bank1).primary = f.setWidth 8) = true ∧
      ([1, 5, 9] : List FileAddr).all
        (fun f => (f ≠ 0 ∧ (f = 1 ∨ (5 ≤ f.toNat ∧ f.toNat ≤ 9))) ∧ (resolve (fileAddress f) bank1).primary = f.setWidth 8 + 0x80) = true := by
  decide

theorem test_witness_ResolveIndirectOnce :
    ([0x02, 0x83, 0x04, 0x8A, 0xFF, 0x00, 0x80, 0x01, 0x85, 0x89] : List Byte).all
        (fun x => x = (pre 0x04 x base).cell 0x04 ||| (if ((pre 0x04 x base).cell 0x03).getLsbD 7 then 0x80 else 0x00)) = true ∧
      (0x85 = (pre 0x04 0x05 (pre 0x03 0x98 base)).cell 0x04 |||
        (if ((pre 0x04 0x05 (pre 0x03 0x98 base)).cell 0x03).getLsbD 7 then 0x80 else 0x00)) := by
  decide

theorem test_witness_ReadGivesThePrimaryCell :
    isUnimplemented (resolve 0x50 base).primary = true ∧ (resolve 0x4F base).primary ≠ 0x08 ∧
      isUnimplemented (resolve 0x4F base).primary = false ∧ (resolve 0x08 base).primary = 0x08 ∧
      (base.cell 0x88).getLsbD 0 = false ∧ (resolve 0x08 (reading 63)).primary = 0x08 ∧
      ((reading 63).cell 0x88).getLsbD 0 = true ∧ ((reading 63).cell 0x09).toNat < 64 ∧
      64 ≤ ((reading 64).cell 0x09).toNat ∧ ((reading 64).cell 0x88).getLsbD 0 = true := by decide

/-- One write for each clause: an unimplemented cell, a GPR, TMR0 in timer mode, PCL, PORTB (edge, input change), a
commit. -/
theorem test_witness_WriteEffectOnEveryCell :
    ([(0x50, 0x12, base), (0x20, 0x12, base), (0x01, 0x12, base.setCell 0x81 0x08), (0x02, 0x12, base),
      (0x06, 0x11, base), (0x06, 0x10, base), (0x08, 0x06, staged 63)] : List (Byte × Byte × State)).all
        (fun x => (nextOf (memWrite x.1 x.2.1 x.2.2)).isSome) = true ∧
      isUnimplemented (resolve 0x50 base).primary = true ∧ (resolve 0x08 (staged 63)).primary = 0x88 := by decide

theorem test_witness_WriteFaultsOnlyOnCommitOutOfRange :
    (resolve 0x08 (staged 64)).primary = 0x88 ∧ (0x06#8).getLsbD 1 = true ∧ (0x06#8).getLsbD 2 = true ∧
      64 ≤ ((staged 64).cell 0x09).toNat ∧ ¬64 ≤ ((staged 63).cell 0x09).toNat := by decide

theorem test_witness_GprIsSharedByTheBanks :
    0x0C ≤ (0x0C#7).toNat ∧ (0x0C#7).toNat ≤ 0x4F ∧ 0x0C ≤ (0x4F#7).toNat ∧ (0x4F#7).toNat ≤ 0x4F := by decide

/-- The commit, then RP0 cleared and RD set. -/
theorem test_witness_CommittedByteReadsBack : ∃ t u : State,
    memWrite 0x08 0x06 (staged 63) = .next t ∧ (resolve 0x08 (staged 63)).primary = 0x88 ∧ u.ee = t.ee ∧
      u.cell 0x09 = (staged 63).cell 0x09 ∧ (u.cell 0x88).getLsbD 0 = true ∧ (resolve 0x08 u).primary = 0x08 :=
  ⟨_, (reading 63).setEe [(63, 0x77)], rfl, by decide, by decide, by decide, by decide, by decide⟩

theorem test_witness_FileOperandsReadAndStore : FileOperandOk 0x08 (reading 63) ∧ FileOperandOk 0x08 (staged 63) := by
  unfold FileOperandOk; decide

theorem test_witness_FileInstructionsComplete :
    fileOperand (.addwf 0x20 .f) = some 0x20 ∧ fileOperand (.clrf 0x08) = some 0x08 ∧ FileOperandOk 0x20 filled ∧
      FileOperandOk 0x08 (staged 63) := by unfold FileOperandOk; decide

theorem test_witness_AdditionAndSubtractionLaws :
    FileHyps filled 0x20 .w 0x56 (BitVec.ofNat 8 (0x34 + 0x56)) ∧ FileHyps filled 0x20 .f 0x56 (BitVec.ofNat 8 (256 + 0x56 - 0x34)) :=
  ⟨⟨by decide, _, rfl⟩, ⟨by decide, _, rfl⟩⟩

theorem test_witness_LogicFileInstructions :
    FileHyps filled 0x20 .w 0x56 (0x34 &&& 0x56) ∧ FileHyps filled 0x20 .f 0x56 (BitVec.ofNat 8 (255 - 0x56)) :=
  ⟨⟨by decide, _, rfl⟩, ⟨by decide, _, rfl⟩⟩

theorem test_witness_IncrementAndDecrement : FileHyps filled 0x20 .w 0x56 0x57 ∧ FileHyps filled 0x20 .f 0x56 0x55 :=
  ⟨⟨by decide, _, rfl⟩, ⟨by decide, _, rfl⟩⟩

/-- A skip and no skip for each. -/
theorem test_witness_IncrementAndDecrementSkip :
    FileHyps (pre 0x20 0xFF base) 0x20 .f 0xFF 0x00 ∧ FileHyps filled 0x20 .w 0x56 0x57 ∧
      FileHyps (pre 0x20 0x01 base) 0x20 .w 0x01 0x00 ∧ FileHyps filled 0x20 .f 0x56 0x55 :=
  ⟨⟨by decide, _, rfl⟩, ⟨by decide, _, rfl⟩, ⟨by decide, _, rfl⟩, ⟨by decide, _, rfl⟩⟩

theorem test_witness_RotatesThroughCarry :
    carryIn filled = 1 ∧ FileHyps filled 0x20 .w 0x56 (BitVec.ofNat 8 (2 * 0x56 + 1)) ∧
      FileHyps filled 0x20 .f 0x56 (BitVec.ofNat 8 (0x56 / 2 + 128)) :=
  ⟨by decide, ⟨by decide, _, rfl⟩, ⟨by decide, _, rfl⟩⟩

theorem test_witness_RotatesAreInverse :
    0x0C ≤ (0x0C#7).toNat ∧ (0x0C#7).toNat ≤ 0x4F ∧ 0x0C ≤ (0x4F#7).toNat ∧ (0x4F#7).toNat ≤ 0x4F := by decide

theorem test_witness_MovesAndClears :
    FileHyps filled 0x20 .f 0x56 (BitVec.ofNat 8 (0x56 % 16 * 16 + 0x56 / 16)) ∧ (∃ u, Stored .f 0x20 filled.w filled u) ∧
      ∃ u, Stored .f 0x08 0x00 (staged 63) u :=
  ⟨⟨by decide, _, rfl⟩, ⟨_, rfl⟩, ⟨_, rfl⟩⟩

theorem test_witness_BitClearAndBitSet :
    FileHyps filled 0x20 .f 0x56 0x52 ∧ (∀ n, n < 8 → (0x52#8).getLsbD n = if n = (2#3).toNat then false else (0x56#8).getLsbD n) ∧
      FileHyps filled 0x20 .f 0x56 0xD6 ∧ (∀ n, n < 8 → (0xD6#8).getLsbD n = if n = (7#3).toNat then true else (0x56#8).getLsbD n) :=
  ⟨⟨by decide, _, rfl⟩, by decide, ⟨by decide, _, rfl⟩, by decide⟩

theorem test_witness_BitTestsSkip : memRead (fileAddress 0x20) filled = .ok 0x56 ∧ (0x56#8).getLsbD 0 = false ∧ (0x56#8).getLsbD 1 = true := by
  decide

/-- A read that faults; the stores of BSF (WREN set, WR stored) and of MOVWF (W = 0x06) that fault, with EEADR just out of
range; and what each of the three answers. -/
theorem test_witness_FileInstructionsFaultWithTheirAccess :
    memRead (fileAddress 0x08) (reading 64) = .error (.eepromAddressOutOfRange 64) ∧
      fileOperand (.incf 0x08 .f) = some 0x08 ∧ (∃ r, exec (.incf 0x08 .f) (reading 64) = .fault r) ∧
      (∃ r, storesTo (.bsf 0x08 1) = some 0x08 ∧ OperandByte (.bsf 0x08 1) 0x08 ((staged 64).setCell 0x88 0x04) 0x04 ∧
        memWrite (fileAddress 0x08) (storedByte (.bsf 0x08 1) ((staged 64).setCell 0x88 0x04) 0x04)
          ((staged 64).setCell 0x88 0x04) = .fault r ∧
        exec (.bsf 0x08 1) ((staged 64).setCell 0x88 0x04) = .fault r) ∧
      ∃ r, storesTo (.movwf 0x08) = some 0x08 ∧ OperandByte (.movwf 0x08) 0x08 ((staged 64).setW 0x06) 0x00 ∧
        memWrite (fileAddress 0x08) (storedByte (.movwf 0x08) ((staged 64).setW 0x06) 0x00) ((staged 64).setW 0x06) = .fault r ∧
        exec (.movwf 0x08) ((staged 64).setW 0x06) = .fault r :=
  ⟨by decide, rfl, ⟨_, rfl⟩, ⟨_, rfl, .inr (.inr (by decide)), rfl, rfl⟩, ⟨_, rfl, .inl rfl, rfl, rfl⟩⟩

/-- Both PCLATH bits; a stack of 12 and of 13 entries. -/
theorem test_witness_GotoAndCallTargets :
    (0x1805#13).toNat = ((pre 0x0A 0x18 base).cell 0x0A).toNat / 8 % 4 * 2048 + (5#11).toNat ∧
      (base.setStack (List.replicate 12 0)).stack.length < 13 ∧ 13 ≤ (base.setStack (List.replicate 13 0)).stack.length := by
  decide

theorem test_witness_ReturnsPopTheStack : (base.setStack [0x023, 0x004]).stack = 0x023 :: [0x004] := rfl

theorem test_witness_ReturnsUnderflowOnAnEmptyStack : base.stack = [] := rfl

theorem test_witness_ReturnFollowsItsCall : ∃ t, exec (.call 0x10) base = .next t ∧ (setPC 0x011 t).stack = t.stack :=
  ⟨_, rfl, rfl⟩

/-- Each of the four pairs. -/
theorem test_witness_RetfieLeavesTheRequestPending :
    ([0x09, 0x12, 0x24] : List Byte).all (fun i => (nextOf (exec .retfie ((pre 0x0B i base).setStack [0x023]))).isSome) = true ∧
      (nextOf (exec .retfie (((pre 0x0B 0x40 base).setCell 0x88 0x10).setStack [0x023]))).isSome = true ∧
      ((pre 0x0B 0x09 base).cell 0x0B).getLsbD 3 = true ∧ ((pre 0x0B 0x09 base).cell 0x0B).getLsbD 0 = true := by decide

theorem test_witness_InstructionFrame : ∃ t u v,
    exec (.addwf 0x06 .f) filled = .next t ∧ exec .clrwdt filled = .next u ∧ exec .retfie (filled.setStack [0]) = .next v :=
  ⟨_, _, _, rfl, rfl, rfl⟩

theorem test_witness_SecondCycleRequests : base.twoCycle = false ∧ ∃ t u,
    exec (.btfss 0x03 3) base = .next t ∧ t.twoCycle = true ∧ exec (.btfsc 0x03 3) base = .next u ∧ u.twoCycle = false :=
  ⟨rfl, _, _, rfl, rfl, rfl, rfl⟩

theorem test_witness_NothingWritesTheProgram :
    (∃ t, exec (.movwf 0x20) filled = .next t) ∧ (∃ t, applyEvent .step base = .next t) ∧
      (∃ t, applyEvent (.port .b 0 true) base = .next t) ∧ ∃ r, applyEvent .step (withWord 0x0008) = .fault r :=
  ⟨⟨_, rfl⟩, ⟨_, rfl⟩, ⟨_, rfl⟩, ⟨_, rfl⟩⟩

/-- OPTION_REG 0x08 (PSA = 1) and 0x02 (ratio 8) at the counts on both sides of the ratio. -/
theorem test_witness_Timer0TimerMode :
    ((base.setCell 0x81 0x08).cell 0x81).getLsbD 5 = false ∧ ((base.setCell 0x81 0x08).cell 0x81).getLsbD 3 = true ∧
      ((base.setCell 0x81 0x02).cell 0x81).getLsbD 5 = false ∧ ((base.setCell 0x81 0x02).cell 0x81).getLsbD 3 = false ∧
      (base.setTmr0Wait 2).tmr0Wait = 1 + 1 ∧ 6 + 1 < 2 ^ (((base.setCell 0x81 0x02).cell 0x81).toNat % 8 + 1) ∧
      2 ^ (((base.setCell 0x81 0x02).cell 0x81).toNat % 8 + 1) ≤ 7 + 1 := by decide

/-- A rising edge, a falling edge, and no edge. -/
theorem test_witness_Timer0CounterMode :
    ((base.setCell 0x81 0x20).setCell 0x05 0x10).t0ckPrev = false ∧
      (((base.setCell 0x81 0x20).setCell 0x05 0x10).cell 0x05).getLsbD 4 = true ∧
      (((base.setCell 0x81 0x20).setCell 0x05 0x10).cell 0x81).getLsbD 4 = false ∧
      (((base.setCell 0x81 0x20).setCell 0x05 0x10).cell 0x81).getLsbD 5 = true ∧
      (base.cell 0x81).getLsbD 5 = true ∧ (base.cell 0x81).getLsbD 4 = true ∧ (base.setT0ckPrev true).t0ckPrev = true ∧
      (base.cell 0x05).getLsbD 4 = false := by decide

theorem test_witness_Timer0CountsOncePerRatio :
    ((base.setCell 0x81 0x00).cell 0x81).getLsbD 5 = false ∧ ((base.setCell 0x81 0x00).cell 0x81).getLsbD 3 = false ∧
      (base.setCell 0x81 0x00).tmr0Wait = 0 ∧ (base.setCell 0x81 0x00).prescCount = 0 ∧
      1 < 2 ^ (((base.setCell 0x81 0x00).cell 0x81).toNat % 8 + 1) := by decide

/-- OPTION_REG = 0xFF: the limit is 128000 (95, conventions). -/
theorem test_witness_WatchdogCountsBelowItsLimit :
    (base.setWdtAcc 127998).wdtAcc + 1 < watchdogLimit (base.setWdtAcc 127998) := by decide

theorem test_witness_WatchdogWakesASleepingCore :
    watchdogLimit ((base.setWdtAcc 127999).setSleeping true) ≤ ((base.setWdtAcc 127999).setSleeping true).wdtAcc + 1 ∧
      ((base.setWdtAcc 127999).setSleeping true).sleeping = true := by decide

theorem test_witness_WatchdogResetsAnAwakeCore :
    watchdogLimit (base.setWdtAcc 127999) ≤ (base.setWdtAcc 127999).wdtAcc + 1 ∧ (base.setWdtAcc 127999).sleeping = false := by decide

theorem test_witness_WatchdogClearedByFourEventsOnly :
    (∃ t, exec .clrwdt (base.setWdtAcc 5) = .next t) ∧ (∃ t, exec .sleep (base.setWdtAcc 5) = .next t) ∧
      (∃ t, exec .nop (base.setWdtAcc 5) = .next t) ∧ ∃ t, intEntry base = .next t :=
  ⟨⟨_, rfl⟩, ⟨_, rfl⟩, ⟨_, rfl⟩, ⟨_, rfl⟩⟩

/-- A core with one word is ready to fetch it. -/
theorem test_witness_fetches {w : StoredWord} {v : ProgWord} (hi : intPending (withWord w) = false)
    (ha : (machineCycle (withWord w)).sleeping = false)
    (h : ∃ u, (withWord w).params.prog[(machineCycle (withWord w)).pc.toNat]? = some u ∧ v = BitVec.ofNat 14 u.toNat) :
    Fetches (withWord w) v :=
  ⟨by simp [withWord, State.powerOn], rfl, hi, ha, h⟩

/-- A step of one cycle and one of two; bits 15 and 14 of a stored word set. -/
theorem test_witness_StepRunsTheDecodedInstruction :
    Fetches (withWord 0x3E01) 0x3E01 ∧ decode 0x3E01 = .ok (.addlw 0x01) ∧ Fetches (withWord 0xE800) 0x2800 ∧
      decode 0x2800 = .ok (.goto 0) ∧ base.twoCycle = false ∧ (base.setTwoCycle true).twoCycle = true :=
  ⟨test_witness_fetches rfl rfl ⟨_, rfl, rfl⟩, rfl, test_witness_fetches rfl rfl ⟨_, rfl, rfl⟩, rfl, rfl, rfl⟩

/-- The last word of a program and the first address past it. -/
theorem test_witness_ProgramReadGivesTheStoredWord :
    (withWord 0xE800).params.prog[(0#13).toNat]? = some 0xE800 ∧ (withWord 0xE800).params.prog.length ≤ (1#13).toNat ∧
      ¬(withWord 0xE800).params.prog.length ≤ (0#13).toNat := by decide

theorem test_witness_UnmatchedWordIsANoOp :
    Fetches (withWord 0x3BFF) 0x3BFF ∧ (machineCycle (withWord 0x3BFF)).twoCycle = false ∧
      decode 0x3BFF = .error (.unmatchedWord 0x3BFF) := ⟨test_witness_fetches rfl rfl ⟨_, rfl, rfl⟩, rfl, rfl⟩

theorem test_witness_FaultedCoreDoesNothing :
    (base.setFault .stackOverflow).params.prog ≠ [] ∧ (base.setFault .stackOverflow).fault = some .stackOverflow := by decide

theorem test_witness_FaultsAreSticky : ∃ r, step (withWord 0x0008) = .fault r := ⟨_, rfl⟩

theorem test_witness_EmptyProgramIsRefused : State.reset.params.prog = [] ∧ base.params.prog ≠ [] := by decide

theorem test_witness_InterruptEntryStep :
    base.params.prog ≠ [] ∧ base.fault = none ∧ intPending (pre 0x0B 0xA4 base) = true ∧
      ((pre 0x0B 0xA4 base).setStack (List.replicate 12 0)).stack.length < 13 ∧
      13 ≤ ((pre 0x0B 0xA4 base).setStack (List.replicate 13 0)).stack.length := by decide

theorem test_witness_SleepingStepTicksTheWatchdogOnly :
    (base.setSleeping true).params.prog ≠ [] ∧ (base.setSleeping true).fault = none ∧
      intPending (base.setSleeping true) = false ∧ (base.setSleeping true).sleeping = true ∧
      (base.setSleeping true).wdtAcc + 1 < watchdogLimit (base.setSleeping true) := by decide

theorem test_witness_FetchPastTheProgramFaults :
    (setPC 1 base).params.prog ≠ [] ∧ (setPC 1 base).fault = none ∧ intPending (setPC 1 base) = false ∧
      (machineCycle (setPC 1 base)).sleeping = false ∧
      (setPC 1 base).params.prog.length ≤ (machineCycle (setPC 1 base)).pc.toNat := by decide

/-- A GOTO (two cycles) and a NOP (one cycle). -/
theorem test_witness_StepCycleCount :
    (Fetches (withWord 0x2800) 0x2800 ∧ decode 0x2800 = .ok (.goto 0) ∧ (machineCycle (withWord 0x2800)).twoCycle = false ∧
      (∃ t, step (withWord 0x2800) = .next t) ∧ RequestsSecondCycle (.goto 0) (advance (machineCycle (withWord 0x2800)))) ∧
    (Fetches (withWord 0x0000) 0x0000 ∧ decode 0x0000 = .ok .nop ∧ (machineCycle (withWord 0x0000)).twoCycle = false ∧
      (∃ t, step (withWord 0x0000) = .next t) ∧ ¬RequestsSecondCycle .nop (advance (machineCycle (withWord 0x0000)))) :=
  ⟨⟨test_witness_fetches rfl rfl ⟨_, rfl, rfl⟩, rfl, rfl, ⟨_, rfl⟩, trivial⟩, ⟨test_witness_fetches rfl rfl ⟨_, rfl, rfl⟩, rfl, rfl, ⟨_, rfl⟩, fun h => h⟩⟩

theorem test_witness_HostPortWriteEffect :
    (∀ n, n < 8 → (0x10#8).getLsbD n = if n = (4#3).toNat then true else (base.cell 0x05).getLsbD n) ∧
      (∀ n, n < 8 → (0x01#8).getLsbD n = if n = (0#3).toNat then true else (base.cell 0x06).getLsbD n) := by decide

theorem test_witness_invariant : base.Inv :=
  ⟨by decide, by decide, by decide, by decide, by decide, by decide, by decide, by decide, by decide, by decide, by decide⟩

theorem test_witness_StepKeepsTheInvariant : base.Inv ∧ ∃ t, step base = .next t := ⟨test_witness_invariant, _, rfl⟩

theorem test_witness_HostActsKeepTheInvariant : base.Inv := test_witness_invariant

theorem test_witness_ResetMeetsTheInvariant : Memory.wf .eeprom [(0, 0x01), (63, 0x77)] := by decide

end Sys2Proof.Tests
end

section
/-! PROOFS. Addresses: the low seven bits of a register's two addresses, and the class tests as facts about
numbers. -/

namespace Sys2Proof.Machine

@[simp] theorem low7_toNat (a : Byte) : (low7 a).toNat = a.toNat % 128 := by
  rw [low7, BitVec.toNat_setWidth]

@[simp] theorem fileAddress_toNat (f : FileAddr) : (fileAddress f).toNat = f.toNat := by
  rw [fileAddress, BitVec.toNat_setWidth]
  omega

/-- The bank-1 address of a register is 0x80 above its bank-0 address. -/
@[simp] theorem fileAddress_or_toNat (f : FileAddr) : (fileAddress f ||| 0x80#8).toNat = f.toNat + 128 := by
  have h := Nat.two_pow_add_eq_or_of_lt (i := 7) f.isLt 1
  rw [BitVec.toNat_or, fileAddress_toNat, Nat.or_comm, Nat.add_comm]
  exact h.symm

/-- A register's addresses are the two whose low seven bits are its number. -/
theorem low7_eq_iff (a : Byte) (f : FileAddr) : low7 a = f ↔ a = fileAddress f ∨ a = fileAddress f ||| 0x80#8 := by
  simp only [← BitVec.toNat_inj, low7_toNat, fileAddress_toNat, fileAddress_or_toNat]
  omega

@[simp] theorem low7_fileAddress (f : FileAddr) : low7 (fileAddress f) = f := (low7_eq_iff _ _).2 (.inl rfl)

@[simp] theorem low7_or_bankBit (a : Byte) (b : Bool) : low7 (a ||| bankBit b) = low7 a := by
  cases b <;> simp [low7, bankBit, BitVec.setWidth_or]

/-- The test of R58 as a range of the low seven bits. -/
theorem isUnimplemented_iff (p : Byte) :
    isUnimplemented p = true ↔ p.toNat % 128 = 0 ∨ p.toNat % 128 = 7 ∨ 0x50 ≤ p.toNat % 128 := by
  simp [isUnimplemented, ← BitVec.toNat_inj, BitVec.le_def, or_assoc]

/-- The test of R55 as a range. -/
theorem isAliased_iff (lo : FileAddr) :
    isAliased lo = true ↔ lo.toNat = 2 ∨ lo.toNat = 3 ∨ lo.toNat = 4 ∨ 0x0A ≤ lo.toNat := by
  simp [isAliased, ← BitVec.toNat_inj, BitVec.le_def, or_assoc]

/-- Settles O8: the cells are told apart by their numbers, low seven bits and bit 7. -/
theorem unimplementedCellsAreThoseListed : Obligations.UnimplementedCellsAreThoseListed := by
  intro p
  simp only [isUnimplemented_iff, ← BitVec.toNat_inj, BitVec.toNat_ofNat]
  omega

end Sys2Proof.Machine
end

section
/-! PROOFS. Reads and writes of the bank-aliased registers whose write has no side effect (R55, R60). -/

namespace Sys2Proof.Machine

/-- The bank-aliased registers that hold a plain byte: STATUS, FSR, PCLATH, INTCON and the general purpose registers.
PCL, the remaining implemented one, jumps when written (R63). -/
def IsPlainShared (f : FileAddr) : Prop := f.toNat = 3 ∨ f.toNat = 4 ∨ 0x0A ≤ f.toNat ∧ f.toNat ≤ 0x4F

/-- Both cells of register `f` made `v`. -/
def setShared (f : FileAddr) (v : Byte) (s : State) : State :=
  (s.setCell (fileAddress f) v).setCell (fileAddress f ||| 0x80#8) v

theorem setShared_cell (f : FileAddr) (v : Byte) (s : State) (q : Byte) :
    (setShared f v s).cell q = if low7 q = f then v else s.cell q := by
  simp only [setShared, State.setCell_cell, low7_eq_iff]
  grind

/-- R55: an address of a bank-aliased register other than INDF resolves to both cells, whatever the bank select is. -/
theorem resolve_of_isAliased {a : Byte} {s : State} (ha : isAliased (low7 a) = true) :
    resolve a s = ⟨fileAddress (low7 a), [fileAddress (low7 a), fileAddress (low7 a) ||| 0x80#8]⟩ := by
  have h0 : low7 a ≠ 0#7 := fun h => by simp [h, isAliased] at ha
  rw [resolve, if_neg h0, resolveDirect, if_pos ha]

/-- R57: an access through INDF, where FSR holds an address of a bank-aliased register. -/
theorem resolve_indf_of_isAliased {s : State} (ha : isAliased (low7 (s.cell 0x04#8)) = true) :
    resolve (fileAddress 0#7) s = resolve (s.cell 0x04#8) s := by
  have hi : low7 (indirectAddress s) = low7 (s.cell 0x04#8) := low7_or_bankBit _ _
  rw [resolve_of_isAliased ha, resolve, if_pos (low7_fileAddress _), resolveDirect, hi, if_pos ha]

namespace IsPlainShared

variable {f : FileAddr} (hf : IsPlainShared f)
include hf

theorem aliased : isAliased f = true := by
  rw [isAliased_iff]
  unfold IsPlainShared at hf
  omega

theorem implemented : isUnimplemented (fileAddress f) = false := by
  rw [← Bool.not_eq_true, isUnimplemented_iff, fileAddress_toNat]
  unfold IsPlainShared at hf
  omega

/-- Where register `f` differs from the cells with a read or write rule of their own: TMR0, PCL, PORTB, EEDATA, EECON1. -/
theorem fileAddress_ne {p : Byte} (hp : p.toNat ∈ [1, 2, 6, 8, 0x88]) : fileAddress f ≠ p := by
  intro h
  have := f.isLt
  rw [← h, fileAddress_toNat] at hp
  unfold IsPlainShared at hf
  simp only [List.mem_cons, List.not_mem_nil, or_false] at hp
  omega

/-- A read at either address gives the bank-0 cell. -/
theorem memRead_eq {a : Byte} (ha : low7 a = f) (s : State) : memRead a s = .ok (s.cell (fileAddress f)) := by
  have hal : isAliased (low7 a) = true := ha ▸ hf.aliased
  rw [memRead, resolve_of_isAliased hal, ha, readPrimary, if_neg (by simp [hf.implemented]),
    if_neg (hf.fileAddress_ne (by decide))]

/-- A read through INDF gives the register whose address, in either bank, FSR holds. -/
theorem memRead_indf {s : State} (ha : low7 (s.cell 0x04#8) = f) :
    memRead (fileAddress 0#7) s = .ok (s.cell (fileAddress f)) := by
  rw [← hf.memRead_eq ha, memRead, memRead, resolve_indf_of_isAliased (ha ▸ hf.aliased)]

theorem writeEffects_eq (v : Byte) (s : State) : writeEffects (fileAddress f) v s = s := by
  rcases writeEffects_cases (fileAddress f) v s with ⟨h, -⟩ | ⟨h, -⟩ | ⟨h, -⟩ | ⟨-, -, -, e⟩
  · exact absurd h (hf.fileAddress_ne (by decide))
  · exact absurd h (hf.fileAddress_ne (by decide))
  · exact absurd h (hf.fileAddress_ne (by decide))
  · exact e

/-- A write stores its byte in both cells and does nothing else. -/
theorem memWrite_eq (v : Byte) (s : State) : memWrite (fileAddress f) v s = .next (setShared f v s) := by
  have hal : isAliased (low7 (fileAddress f)) = true := by rw [low7_fileAddress, hf.aliased]
  rw [memWrite, resolve_of_isAliased hal, low7_fileAddress, writeResolved, if_neg (by simp [hf.implemented]),
    commitAfterWrite, if_neg (hf.fileAddress_ne (by decide)), hf.writeEffects_eq]
  rfl

/-- BCF and BSF rewrite the register with one bit changed (R67). -/
theorem modifyBit_eq (b : BitIndex) (v : Bool) (s : State) :
    modifyBit f b v s = .next (setShared f (withBit (s.cell (fileAddress f)) b.toNat v) s) := by
  rw [modifyBit, withFile, hf.memRead_eq (low7_fileAddress f)]
  exact hf.memWrite_eq _ _

end IsPlainShared

/-! ### A general purpose register under the two selects -/

/-- STATUS with a bit rewritten: the bit is the new one, and any other plain shared register reads as before. -/
theorem modifyBit_status {f : FileAddr} (hf : IsPlainShared f) (h3 : f ≠ 3#7) (b : BitIndex) (v : Bool) (s : State) :
    ∃ u, modifyBit 3#7 b v s = .next u ∧ (u.cell 0x03#8).getLsbD b.toNat = v ∧
      memRead (fileAddress f) u = memRead (fileAddress f) s := by
  have hstatus : IsPlainShared 3#7 := .inl rfl
  refine ⟨_, hstatus.modifyBit_eq b v s, ?_, ?_⟩
  · rw [setShared_cell, if_pos (by decide), withBit_getLsbD _ _ _ _ b.isLt, if_pos rfl]
  · simp only [hf.memRead_eq (low7_fileAddress f), setShared_cell, low7_fileAddress, h3, if_false]

/-- With either address of a register other than FSR in FSR, INDF reads that register. -/
theorem memRead_indf_after_fsr {f : FileAddr} (hf : IsPlainShared f) (h4 : f ≠ 4#7) {x : Byte} (hx : low7 x = f)
    (s : State) :
    ∃ u, memWrite (fileAddress 4#7) x s = .next u ∧ u.cell 0x04#8 = x ∧
      memRead (fileAddress 0#7) u = memRead (fileAddress f) s := by
  have hfsr : IsPlainShared 4#7 := .inr (.inl rfl)
  have hx4 : (setShared 4#7 x s).cell 0x04#8 = x := by rw [setShared_cell, if_pos (by decide)]
  refine ⟨_, hfsr.memWrite_eq x s, hx4, ?_⟩
  rw [hf.memRead_indf (by rw [hx4, hx]), hf.memRead_eq (low7_fileAddress f), setShared_cell, low7_fileAddress, if_neg h4]

/-- Settles O11: a general purpose register is a plain shared register, so its two cells hold the byte written, and neither
STATUS nor FSR is one of them. -/
theorem gprIsSharedByTheBanks : Obligations.GprIsSharedByTheBanks := by
  intro s f v hlo hhi
  have hf : IsPlainShared f := .inr (.inr ⟨by omega, hhi⟩)
  have h3 : f ≠ 3#7 := by rintro rfl; simp at hlo
  have h4 : f ≠ 4#7 := by rintro rfl; simp at hlo
  have hread {a : Byte} (ha : low7 a = f) : memRead a (setShared f v s) = .ok v := by
    rw [hf.memRead_eq ha, setShared_cell, low7_fileAddress, if_pos rfl]
  have hlow := low7_fileAddress f
  refine ⟨_, hf.memWrite_eq v s, hread hlow, hread ((low7_eq_iff _ _).2 (.inr rfl)), ?_, ?_, ?_⟩
  · rw [← hread hlow]
    exact modifyBit_status hf h3 5#3 true _
  · rw [← hread hlow]
    exact modifyBit_status hf h3 5#3 false _
  · intro x hx
    rw [← hread hlow]
    exact memRead_indf_after_fsr hf h4 ((low7_eq_iff _ _).2 hx) _

end Sys2Proof.Machine
end

section
/-! PROOFS. The three returns as pops of the return stack (R43, R145 to R147). -/

namespace Sys2Proof.Machine

theorem exec_ret (s : State) : exec .ret s = withPop s fun v t => .next (jumpTo v t) := rfl

theorem exec_retlw (k : Byte) (s : State) : exec (.retlw k) s = withPop s fun v t => .next (jumpTo v (t.setW k)) := rfl

theorem exec_retfie (s : State) :
    exec .retfie s = withPop s fun v t => .next (((setIntconBit 7 t).setPcNext v).setTwoCycle true) := rfl

/-- A pop of an empty stack faults and changes nothing else (R43). -/
theorem withPop_of_nil {s : State} (h : s.stack = []) (k : ProgAddr → State → Out) :
    withPop s k = .fault (.stackUnderflow (faultedAt .stackUnderflow s)) := by
  unfold withPop
  split
  · rfl
  · simp_all

/-- Settles O29: each of the three returns is a pop first. -/
theorem returnsUnderflowOnAnEmptyStack : Obligations.ReturnsUnderflowOnAnEmptyStack := by
  intro s k h
  rw [exec_ret, exec_retlw, exec_retfie]
  exact ⟨withPop_of_nil h _, withPop_of_nil h _, withPop_of_nil h _⟩

end Sys2Proof.Machine
end

section
/-! PROOFS. Nothing writes the parameters (R52, R80): what an outcome keeps, for the two ways a step can leave a state, and
that every operation, instruction, step and host event keeps `params`. -/

namespace Sys2Proof.Machine

/-- The state an outcome leaves, whether the operation completed or faulted, agrees with `s` in `g`. -/
def Keeps {α : Type} (g : State → α) (s : State) : Out → Prop
  | .next t => g t = g s
  | .fault r => g r.left = g s
  | .refused _ => True

@[simp] theorem keeps_next {α : Type} (g : State → α) (s t : State) : Keeps g s (.next t) ↔ g t = g s := Iff.rfl

theorem keeps_raise {α : Type} (g : State → α) (s : State) (k : FaultKind)
    (h : g ((s.setFault k).setCycles 0) = g s) : Keeps g s (raise k s) := by
  rw [raise, Keeps, Fault.left_of, h]

/-- What is kept from a state that agrees with `s` is kept from `s`. -/
theorem Keeps.of_eq {α : Type} {g : State → α} {s t : State} {o : Out} (h : Keeps g t o) (ht : g t = g s) :
    Keeps g s o := by
  unfold Keeps at h ⊢
  rwa [ht] at h

/-- What both parts of a sequence keep, the sequence keeps. -/
theorem keeps_andThen {α : Type} {g : State → α} {s : State} {o : Out} {k : State → Out} (ho : Keeps g s o)
    (hk : ∀ t, Keeps g t (k t)) : Keeps g s (andThen o k) := by
  cases o with
  | next t => exact (hk t).of_eq ho
  | fault r => exact ho
  | refused r => trivial

/-! ### The operations -/

theorem raise_keepsParams (k : FaultKind) (s : State) : Keeps State.params s (raise k s) :=
  keeps_raise _ _ _ (by simp)

@[simp] theorem genericWrite_params (l : List Byte) (v : Byte) (s : State) :
    (genericWrite l v s).params = s.params := by rw [genericWrite_eq_setCells]; simp

@[simp] theorem portbChange_params (old v : Byte) (s : State) : (portbChange old v s).params = s.params := by
  rw [portbChange_eq_setCells]; simp

@[simp] theorem writeEffects_params (p v : Byte) (s : State) : (writeEffects p v s).params = s.params := by
  rcases writeEffects_cases p v s with ⟨_, _, e⟩ | ⟨_, e⟩ | ⟨_, e⟩ | ⟨_, _, _, e⟩ <;> simp [e]

theorem memWrite_keepsParams (a v : Byte) (s : State) : Keeps State.params s (memWrite a v s) := by
  by_cases h : ∃ t, memWrite a v s = .next t
  · obtain ⟨t, ht⟩ := h
    rw [ht, keeps_next]
    rcases memWrite_eq_next ht with ⟨-, rfl⟩ | ⟨-, u, hu, ⟨rfl, -⟩ | ⟨-, -, -, -, rfl⟩⟩ <;> simp [*]
  · obtain ⟨-, u, hu, -, -, -, e⟩ := memWrite_ne_next (not_exists.1 h)
    rw [e]
    exact (raise_keepsParams _ u).of_eq (by simp [hu])

theorem withFile_keepsParams (f : FileAddr) (s : State) {k : Byte → Out} (hk : ∀ a, Keeps State.params s (k a)) :
    Keeps State.params s (withFile f s k) := by
  unfold withFile
  split
  · exact hk _
  · exact raise_keepsParams _ _

theorem dest_keepsParams (d : Dest) (f : FileAddr) (r : Byte) (s : State) : Keeps State.params s (dest d f r s) := by
  cases d with
  | w => simp [dest]
  | f => exact memWrite_keepsParams ..

theorem fileOp_keepsParams (f : FileAddr) (d : Dest) (s : State) (result : Byte → Byte) {after : Byte → State → State}
    (h : ∀ a t, (after a t).params = t.params) : Keeps State.params s (fileOp f d s result after) :=
  withFile_keepsParams f s fun a => keeps_andThen (dest_keepsParams ..) (h a)

theorem modifyBit_keepsParams (f : FileAddr) (b : BitIndex) (v : Bool) (s : State) :
    Keeps State.params s (modifyBit f b v s) := withFile_keepsParams f s fun _ => memWrite_keepsParams ..

@[simp] theorem skipIf_params (c : Bool) (s : State) : (skipIf c s).params = s.params := by
  rcases skipIf_cases c s with ⟨-, e⟩ | ⟨-, e⟩ <;> simp [e]

theorem testBit_keepsParams (f : FileAddr) (b : BitIndex) (v : Bool) (s : State) :
    Keeps State.params s (testBit f b v s) := withFile_keepsParams f s fun _ => skipIf_params ..

theorem push_keepsParams (v : ProgAddr) (s : State) : Keeps State.params s (push v s) := by
  unfold push
  split
  · exact raise_keepsParams _ _
  · simp

theorem withPop_keepsParams (s : State) {k : ProgAddr → State → Out} (hk : ∀ v t, Keeps State.params t (k v t)) :
    Keeps State.params s (withPop s k) := by
  unfold withPop
  split
  · exact raise_keepsParams _ _
  · exact (hk _ (s.setStack _)).of_eq (State.setStack_params ..)

@[simp] theorem jumpTo_params (v : ProgAddr) (s : State) : (jumpTo v s).params = s.params := by simp [jumpTo]

@[simp] theorem setPC_params (v : ProgAddr) (s : State) : (setPC v s).params = s.params := by simp [setPC]

@[simp] theorem clearPrescalerRate_params (s : State) : (clearPrescalerRate s).params = s.params := by
  rw [clearPrescalerRate_eq_setCells]; simp

/-! ### The instructions -/

theorem exec_keepsParams (i : Instr) (s : State) : Keeps State.params s (exec i s) := by
  cases i
  case addwf f d | subwf f d | andwf f d | iorwf f d | xorwf f d | comf f d | movf f d | incf f d | decf f d
      | incfsz f d | decfsz f d | rlf f d | rrf f d | swapf f d =>
    exact fileOp_keepsParams f d s _ (by simp)
  case bcf f b | bsf f b => exact modifyBit_keepsParams f b _ s
  case btfsc f b | btfss f b => exact testBit_keepsParams f b _ s
  case movwf f => exact memWrite_keepsParams ..
  case clrf f => exact keeps_andThen (memWrite_keepsParams ..) (by simp)
  case call k => exact keeps_andThen (push_keepsParams ..) (by simp)
  case ret => rw [exec_ret]; exact withPop_keepsParams s (by simp)
  case retlw k => rw [exec_retlw]; exact withPop_keepsParams s (by simp)
  case retfie => rw [exec_retfie]; exact withPop_keepsParams s (by simp)
  case clrw => simp [exec, execClrw]
  case addlw k => simp [exec, execAddlw]
  case sublw k => simp [exec, execSublw]
  case andlw k => simp [exec, execAndlw]
  case iorlw k => simp [exec, execIorlw]
  case xorlw k => simp [exec, execXorlw]
  case movlw k => simp [exec, execMovlw]
  case goto k => simp [exec, execGoto]
  case nop => simp [exec, execNop]
  case clrwdt => simp [exec, execClrwdt]
  case sleep => simp [exec, execSleep]

/-! ### The step -/

@[simp] theorem tmr0Tick_params (s : State) : (tmr0Tick s).params = s.params := by
  obtain ⟨u, b, e, ⟨-, rfl⟩ | rfl | rfl | ⟨-, rfl⟩ | rfl⟩ := tmr0Tick_cases s <;> simp [e]

@[simp] theorem wdtTick_params (s : State) : (wdtTick s).params = s.params := by
  rcases wdtTick_cases s with ⟨-, e⟩ | ⟨-, -, e⟩ | ⟨-, -, e⟩ <;> simp [e]

@[simp] theorem machineCycle_params (s : State) : (machineCycle s).params = s.params := by
  rcases machineCycle_cases s with ⟨-, e⟩ | ⟨-, e⟩ <;> simp [e]

@[simp] theorem advance_params (s : State) : (advance s).params = s.params := by rw [advance_eq]; simp

@[simp] theorem finishStep_params (s : State) : (finishStep s).params = s.params := by
  rcases finishStep_cases s with ⟨-, e⟩ | ⟨-, e⟩ <;> simp [e]

theorem execWord_keepsParams (word : ProgWord) (s : State) : Keeps State.params s (execWord word s) := by
  unfold execWord
  split
  · exact exec_keepsParams _ _
  · simp

theorem runInstruction_keepsParams (s : State) : Keeps State.params s (runInstruction s) := by
  unfold runInstruction
  split
  · exact raise_keepsParams _ _
  · refine keeps_andThen ?_ (by simp)
    exact (execWord_keepsParams _ (advance s)).of_eq (advance_params s)

theorem intEntry_keepsParams (s : State) : Keeps State.params s (intEntry s) :=
  keeps_andThen (push_keepsParams ..) (by simp)

theorem step_keepsParams (s : State) : Keeps State.params s (step s) := by
  unfold step stepCore stepLoaded runningStep
  split
  · trivial
  split
  · simp
  split
  · exact keeps_andThen (intEntry_keepsParams s) (by simp)
  dsimp only
  split
  · simp
  · exact (runInstruction_keepsParams _).of_eq (machineCycle_params s)

/-! ### The host -/

@[simp] theorem hostPortWrite_params (p : Port) (b : BitIndex) (v : Bool) (s : State) :
    (hostPortWrite p b v s).params = s.params := by
  simp only [hostPortWrite, portbWriteEffect, State.setCell_params]
  split <;> simp

theorem applyEvent_keepsParams (e : Event) (s : State) : Keeps State.params s (applyEvent e s) := by
  cases e with
  | step => exact step_keepsParams s
  | reset => exact resetCore_params s
  | port p b v => exact hostPortWrite_params p b v s

/-- Settles O35: every instruction and every event keeps `params`, whether it completes or faults. -/
theorem nothingWritesTheProgram : Obligations.NothingWritesTheProgram := by
  refine ⟨fun i s t h => ?_, fun e s t h => ?_, fun e s r h => ?_⟩
  · simpa [h] using exec_keepsParams i s
  · simpa [h] using applyEvent_keepsParams e s
  · have hkeep := applyEvent_keepsParams e s
    rwa [h] at hkeep

end Sys2Proof.Machine
end

section
/-! PROOFS. What a read gives (R58, R59), and the bank resolver on every address: both classes, directly and through INDF
(R54 to R57). -/

namespace Sys2Proof.Machine

/-! ### Reads, and the write that is ignored -/

theorem memRead_of_unimplemented {a : Byte} {s : State} (h : isUnimplemented (resolve a s).primary = true) :
    memRead a s = .ok 0x00#8 := by rw [memRead, readPrimary, if_pos h]

theorem memRead_of_eedata {a : Byte} {s : State} (h : (resolve a s).primary = 0x08#8) :
    memRead a s = if (s.cell 0x88#8).getLsbD 0 = true then
        if 64 ≤ (s.cell 0x09#8).toNat then .error (.eepromAddressOutOfRange (s.cell 0x09#8))
        else .ok (s.eeByte (s.cell 0x09#8))
      else .ok 0x00#8 := by
  rw [memRead, h, readPrimary, if_neg (by decide), if_pos rfl]
  rfl

theorem memRead_of_plain {a : Byte} {s : State} (hu : isUnimplemented (resolve a s).primary = false)
    (h8 : (resolve a s).primary ≠ 0x08#8) : memRead a s = .ok (s.cell (resolve a s).primary) := by
  rw [memRead, readPrimary, if_neg (by simp [hu]), if_neg h8]

/-- Settles O7, one kind of cell at a time. -/
theorem readGivesThePrimaryCell : Obligations.ReadGivesThePrimaryCell := by
  rintro s a p rfl
  refine ⟨memRead_of_unimplemented, memRead_of_plain, fun h8 hrd => ?_, fun h8 hrd hadr => ?_, fun h8 hrd hadr => ?_⟩
  · rw [memRead_of_eedata h8, hrd, if_neg Bool.false_ne_true]
  · rw [memRead_of_eedata h8, if_pos hrd, if_neg (by omega)]
  · rw [memRead_of_eedata h8, if_pos hrd, if_pos hadr]

/-- A write to an unimplemented cell is ignored (R61). -/
theorem memWrite_of_unimplemented {a : Byte} {s : State} (h : isUnimplemented (resolve a s).primary = true) (v : Byte) :
    memWrite a v s = .next s := by rw [memWrite, writeResolved, if_pos h]

/-! ### The resolver -/

theorem fileAddress_eq_ofNat (f : FileAddr) : fileAddress f = BitVec.ofNat 8 f.toNat :=
  BitVec.eq_of_toNat_eq (by rw [fileAddress_toNat, BitVec.toNat_ofNat]; omega)

theorem fileAddress_or_eq_ofNat (f : FileAddr) : fileAddress f ||| 0x80#8 = BitVec.ofNat 8 (f.toNat + 128) :=
  BitVec.eq_of_toNat_eq (by rw [fileAddress_or_toNat, BitVec.toNat_ofNat]; omega)

theorem fileAddress_or_bankBit_eq_ofNat (f : FileAddr) (b : Bool) :
    fileAddress f ||| bankBit b = BitVec.ofNat 8 (f.toNat + 128 * b.toNat) := by
  cases b
  · rw [bankBit, if_neg Bool.false_ne_true, BitVec.or_zero, fileAddress_eq_ofNat]
    rfl
  · exact fileAddress_or_eq_ofNat f

/-- R55 after the redirection of R57: an address of a bank-aliased register. -/
theorem resolveDirect_of_aliased {a : Byte} (ha : isAliased (low7 a) = true) (s : State) :
    resolveDirect a s = ⟨fileAddress (low7 a), [fileAddress (low7 a), fileAddress (low7 a) ||| 0x80#8]⟩ := by
  rw [resolveDirect, if_pos ha]

/-- R56 after the redirection of R57: any other address. -/
theorem resolveDirect_of_not_aliased {a : Byte} (ha : isAliased (low7 a) = false) (s : State) :
    resolveDirect a s = ⟨a ||| bankBit s.rp0, [a ||| bankBit s.rp0]⟩ := by
  rw [resolveDirect, if_neg (by simp [ha])]

theorem resolve_of_ne_indf {a : Byte} (ha : low7 a ≠ 0#7) (s : State) : resolve a s = resolveDirect a s := if_neg ha

theorem resolve_indf (s : State) : resolve (fileAddress 0#7) s = resolveDirect (indirectAddress s) s :=
  if_pos (low7_fileAddress 0#7)

/-- The addresses that are not bank-aliased, the one of INDF among them. -/
theorem isAliased_eq_false_iff (lo : FileAddr) :
    isAliased lo = false ↔ lo.toNat = 0 ∨ lo.toNat = 1 ∨ (5 ≤ lo.toNat ∧ lo.toNat ≤ 9) := by
  rw [← Bool.not_eq_true, isAliased_iff]
  omega

theorem or_bankBit_getLsbD_seven (a : Byte) (b : Bool) : (a ||| bankBit b).getLsbD 7 = (a.getLsbD 7 || b) := by
  cases b <;> simp [bankBit]

/-- Settles O5, by the class of the address. -/
theorem resolveDirectAddress : Obligations.ResolveDirectAddress := by
  intro s f h0
  have hlow := low7_fileAddress f
  rw [resolve_of_ne_indf (by rwa [hlow])]
  refine ⟨fun hf => ?_, fun hf => ?_⟩
  · have ha : isAliased f = true := by
      rw [isAliased_iff]
      simpa only [← BitVec.toNat_inj, BitVec.toNat_ofNat] using hf
    rw [resolveDirect_of_aliased (hlow.symm ▸ ha), hlow, fileAddress_or_eq_ofNat, fileAddress_eq_ofNat]
  · have ha : isAliased f = false := by
      rw [isAliased_eq_false_iff]
      exact .inr (by simpa only [← BitVec.toNat_inj, BitVec.toNat_ofNat] using hf)
    rw [resolveDirect_of_not_aliased (hlow.symm ▸ ha), fileAddress_or_bankBit_eq_ofNat]
    rfl

/-- Settles O6: INDF resolves as the address it names does directly, and that address is not redirected again. -/
theorem resolveIndirectOnce : Obligations.ResolveIndirectOnce := by
  rintro s x hx
  have hx : indirectAddress s = x := hx.symm
  rw [resolve_indf, hx]
  refine ⟨fun hlo => ?_, fun hlo => ?_, fun hlo => ?_⟩
  · have ha : isAliased (low7 x) = true := by rwa [isAliased_iff, low7_toNat]
    rw [resolveDirect_of_aliased ha, fileAddress_or_eq_ofNat, fileAddress_eq_ofNat, low7_toNat]
  · have ha : isAliased (low7 x) = false := by rwa [isAliased_eq_false_iff, low7_toNat]
    refine ⟨_, resolveDirect_of_not_aliased ha s, ?_, or_bankBit_getLsbD_seven x s.rp0⟩
    rw [← low7_toNat, low7_or_bankBit, low7_toNat]
  · have ha : isAliased (low7 x) = false := by rw [isAliased_eq_false_iff, low7_toNat]; exact .inl hlo
    have hu : isUnimplemented (resolve (fileAddress 0#7) s).primary = true := by
      rw [resolve_indf, hx, resolveDirect_of_not_aliased ha, isUnimplemented_iff, ← low7_toNat, low7_or_bankBit,
        low7_toNat]
      exact .inl hlo
    exact ⟨memRead_of_unimplemented hu, memWrite_of_unimplemented hu⟩

end Sys2Proof.Machine
end

section
/-! PROOFS. What a write does: one equation for EECON1, which commits to the EEPROM, and one for every other cell
(R60 to R66, R70). -/

namespace Sys2Proof.Machine

/-! ### The two kinds of write -/

/-- A write elsewhere than EECON1 completes: an unimplemented cell ignores it, any other has its side effects and then
the generic write. -/
theorem memWrite_of_ne_eecon1 {a v : Byte} {s : State} (h : (resolve a s).primary ≠ 0x88#8) :
    memWrite a v s = .next (if isUnimplemented (resolve a s).primary then s
      else genericWrite (resolve a s).writeSet v (writeEffects (resolve a s).primary v s)) := by
  rw [memWrite, writeResolved, commitAfterWrite, if_neg h]
  split <;> rfl

/-- The state a completed commit leaves (R66). -/
def committed (v : Byte) (s : State) : State :=
  ((s.setCell 0x88#8 v).setEeByte (s.cell 0x09#8) (s.cell 0x08#8)).setCell 0x88#8 (v &&& ~~~0x02#8 ||| 0x10#8)

/-- A write to EECON1 stores the byte and, where it has WR and WREN set, commits (R66). -/
theorem memWrite_of_eecon1 {a v : Byte} {s : State} (h : (resolve a s).primary = 0x88#8) :
    memWrite a v s =
      if v.getLsbD 1 = true ∧ v.getLsbD 2 = true then
        if 64 ≤ (s.cell 0x09#8).toNat then raise (.eepromAddressOutOfRange (s.cell 0x09#8)) (s.setCell 0x88#8 v)
        else .next (committed v s)
      else .next (s.setCell 0x88#8 v) := by
  have hset : (resolve a s).writeSet = [0x88#8] := by
    rw [resolve_private (by rw [h]; decide), h]
  have heff : writeEffects 0x88#8 v s = s := rfl
  have hcommit : memWrite a v s = eeCommit (s.setCell 0x88#8 v) := by
    rw [memWrite, writeResolved, h, if_neg (by decide), commitAfterWrite, if_pos rfl, hset, heff]
    rfl
  simp [hcommit, eeCommit, committed, State.eecon1, State.eeadr]

/-- Settles O10: only the commit can fault. -/
theorem writeFaultsOnlyOnCommitOutOfRange : Obligations.WriteFaultsOnlyOnCommitOutOfRange := by
  rintro s a v p rfl
  refine ⟨fun hok => ?_, fun hp hwr hwren hadr => ?_⟩
  · by_cases hp : (resolve a s).primary = 0x88#8
    · rw [memWrite_of_eecon1 hp]
      by_cases hc : v.getLsbD 1 = true ∧ v.getLsbD 2 = true
      · rw [if_pos hc, if_neg fun hadr => hok ⟨hp, hc.1, hc.2, hadr⟩]
        exact ⟨_, rfl⟩
      · rw [if_neg hc]
        exact ⟨_, rfl⟩
    · exact ⟨_, memWrite_of_ne_eecon1 hp⟩
  · rw [memWrite_of_eecon1 hp, if_pos ⟨hwr, hwren⟩, if_pos hadr]
    rfl

/-! ### The cells and fields after a write -/

theorem rb0Edge_iff (opt old v : Byte) :
    rb0Edge opt old v = true ↔
      (opt.getLsbD 6 = true ∧ old.getLsbD 0 = false ∧ v.getLsbD 0 = true) ∨
        (opt.getLsbD 6 = false ∧ old.getLsbD 0 = true ∧ v.getLsbD 0 = false) := by
  unfold rb0Edge
  cases opt.getLsbD 6 <;> simp

theorem portbInputChange_iff (trisb old v : Byte) :
    portbInputChange trisb old v = true ↔ (old ^^^ v) &&& 0xF0#8 &&& trisb ≠ 0#8 := by
  simp [portbInputChange]

/-- The side effects change a cell only for PORTB, and then INTF, else RBIF (R64). -/
theorem writeEffects_cell (p v : Byte) (s : State) (q : Byte) :
    (writeEffects p v s).cell q =
      if p = 0x06#8 ∧ (q = 0x0B#8 ∨ q = 0x8B#8) then
        (if rb0Edge s.optionReg (s.cell 0x06#8) v = true then s.cell q ||| 0x02#8
         else if portbInputChange (s.cell 0x86#8) (s.cell 0x06#8) v = true then s.cell q ||| 0x01#8
         else s.cell q)
      else s.cell q := by
  rcases writeEffects_cases p v s with ⟨rfl, -, e⟩ | ⟨rfl, e⟩ | ⟨rfl, e⟩ | ⟨-, -, h6, e⟩
  · simp [e]
  · simp [e]
  · rw [e, portbChange_cell]
    by_cases hq : q = 0x0B#8 ∨ q = 0x8B#8 <;> simp [hq, withBit]
  · simp [e, h6]

theorem writeEffects_pcNext (p v : Byte) (s : State) :
    (writeEffects p v s).pcNext = if p = 0x02#8 then pclTarget v s else s.pcNext := by
  rcases writeEffects_cases p v s with ⟨rfl, -, e⟩ | ⟨rfl, e⟩ | ⟨rfl, e⟩ | ⟨-, h2, -, e⟩
  · simp [e]
  · simp [e]
  · rw [e, portbChange_eq_setCells]; simp
  · simp [e, h2]

theorem writeEffects_tmr0Wait (p v : Byte) (s : State) :
    (writeEffects p v s).tmr0Wait = if p = 0x01#8 ∧ s.optionReg.getLsbD 5 = false then 2 else s.tmr0Wait := by
  rcases writeEffects_cases p v s with ⟨rfl, h, e⟩ | ⟨rfl, e⟩ | ⟨rfl, e⟩ | ⟨h1, -, -, e⟩
  · rw [e, if_pos ⟨rfl, h⟩]; rfl
  · simp [e]
  · rw [e, portbChange_eq_setCells]; simp
  · rw [e, if_neg h1]

/-- The side effects write cells, `pcNext` and `tmr0_wait` only. -/
theorem writeEffects_eq (p v : Byte) (s : State) :
    writeEffects p v s = ((s.setCells (writeEffects p v s).cells).setPcNext (writeEffects p v s).pcNext).setTmr0Wait
      (writeEffects p v s).tmr0Wait := by
  rcases writeEffects_cases p v s with ⟨-, -, e⟩ | ⟨-, e⟩ | ⟨-, e⟩ | ⟨-, -, -, e⟩ <;> rw [e]
  · rfl
  · rfl
  · rw [portbChange_eq_setCells]; rfl
  · rfl

/-- The target of a PCL write, as a number (R63). -/
theorem pclTarget_toNat (v : Byte) (s : State) :
    (pclTarget v s).toNat = (s.cell 0x0A#8).toNat % 32 * 256 + v.toNat := by
  have h := Nat.two_pow_add_eq_or_of_lt (i := 8) v.isLt ((s.cell 0x0A#8).toNat % 32)
  rw [pclTarget, BitVec.toNat_append, BitVec.extractLsb'_toNat, Nat.shiftLeft_eq, Nat.shiftRight_zero,
    Nat.mul_comm _ (2 ^ 8)]
  exact h.symm.trans (by omega)

theorem committed_cell (v : Byte) (s : State) (q : Byte) :
    (committed v s).cell q = if q = 0x88#8 then (v &&& 0xFD#8) ||| 0x10#8 else s.cell q := by
  by_cases hq : q = 0x88#8 <;> simp [committed, hq]

theorem committed_eeByte (v : Byte) (s : State) (j : Byte) :
    (committed v s).eeByte j = if j = s.cell 0x09#8 then s.cell 0x08#8 else s.eeByte j := by
  simp [committed]

/-- Settles O9: EECON1 and the other implemented cells apart, the commit being EECON1's only. -/
theorem writeEffectOnEveryCell : Obligations.WriteEffectOnEveryCell := by
  rintro s t a v p rfl h
  refine ⟨fun hu => ?_, fun hu => ?_⟩
  · have hp : (resolve a s).primary ≠ 0x88#8 := by rintro hp; simp [hp, isUnimplemented, low7] at hu
    rw [memWrite_of_ne_eecon1 hp, if_pos hu] at h
    cases h
    rfl
  by_cases hp : (resolve a s).primary = 0x88#8
  · rw [memWrite_of_eecon1 hp] at h
    simp only [hp, true_and]
    split_ifs at h with hc hadr
    · exact absurd h (raise_ne_next _ _ _)
    · cases h
      refine ⟨rfl, fun h2 => absurd h2 (by decide), fun _ => rfl, rfl, fun q => ?_, fun j => ?_⟩
      · rw [if_pos hc]; simp [committed_cell]
      · simp [committed_eeByte, hc]
    · cases h
      refine ⟨rfl, fun h2 => absurd h2 (by decide), fun _ => rfl, rfl, fun q => ?_, fun j => ?_⟩
      · rw [if_neg hc]; simp
      · rw [if_neg fun hj => hc ⟨hj.1, hj.2.1⟩]
        rfl
  · rw [memWrite_of_ne_eecon1 hp, if_neg (by simp [hu])] at h
    cases h
    simp only [hp, false_and, if_false]
    have hframe := genericWrite_eq_setCells (resolve a s).writeSet v (writeEffects (resolve a s).primary v s)
    refine ⟨?_, fun h2 => ?_, fun h2 => ?_, ?_, fun q => ?_, fun j => ?_⟩
    · rw [hframe, writeEffects_eq]; rfl
    · rw [hframe, State.setCells_pcNext, writeEffects_pcNext, if_pos h2, pclTarget_toNat]
    · rw [hframe, State.setCells_pcNext, writeEffects_pcNext, if_neg h2]
    · rw [hframe, State.setCells_tmr0Wait, writeEffects_tmr0Wait]; rfl
    · simp only [genericWrite_cell, mem_writeSet_iff, writeEffects_cell, rb0Edge_iff, portbInputChange_iff]
      rfl
    · rw [hframe, writeEffects_eq]; rfl

/-! ### Write, then read -/

/-- Settles O12: the commit stores the staged byte, and the read of EEDATA finds EEADR in range as the commit did. -/
theorem committedByteReadsBack : Obligations.CommittedByteReadsBack := by
  intro s t u a b v h hp hwr hwren hee hadr hrd hb
  rw [memWrite_of_eecon1 hp, if_pos ⟨hwr, hwren⟩] at h
  split_ifs at h with hlt
  · exact absurd h (raise_ne_next _ _ _)
  cases h
  have hbyte : u.eeByte (s.cell 0x09#8) = s.cell 0x08#8 := by
    rw [State.eeByte, hee]
    exact (committed_eeByte ..).trans (if_pos rfl)
  rw [memRead_of_eedata hb, if_pos hrd, hadr, if_neg hlt, hbyte]

/-- Settles O13: the read can only fault at EEDATA, and the write only at EECON1. -/
theorem fileOperandsReadAndStore : Obligations.FileOperandsReadAndStore := by
  rintro s f d r ⟨hread, hwrite⟩
  constructor
  · rcases memRead_cases (fileAddress f) s with hok | ⟨-, h8, hrd, hadr⟩
    · exact hok
    · exact absurd (hread h8 hrd) (Nat.not_lt.2 hadr)
  · cases d with
    | w => exact ⟨_, rfl⟩
    | f => exact (writeFaultsOnlyOnCommitOutOfRange s (fileAddress f) r _ rfl).1
            fun ⟨h88, _, _, hadr⟩ => absurd (hwrite h88) (Nat.not_lt.2 hadr)

end Sys2Proof.Machine
end

section
/-! PROOFS. The invariant (R19, R38, R41, R46, R47, R55): its part that holds at every point of a step, kept by every
operation and every instruction; and the rest, which the end of each step restores (R45, R95, R104). -/

namespace Sys2Proof.Machine

/-- The part of the invariant that every operation of a step keeps. -/
structure State.Steady (s : State) : Prop where
  canonical : s.Canonical
  aliasSync : ∀ lo : FileAddr, isAliased lo = true → s.cell (fileAddress lo) = s.cell (fileAddress lo ||| 0x80#8)
  unimplementedZero : ∀ p : Byte, isUnimplemented p = true → s.cell p = 0#8
  stackBound : s.stack.length ≤ 13
  prescBound : s.prescCount ≤ 255
  waitBound : s.tmr0Wait ≤ 2

/-- PC, its PCL mirror and the next address agree, as they do from the end of an instruction to the next fetch. -/
structure State.PcSettled (s : State) : Prop where
  pclMirror : s.cell 0x02#8 = lowByte s.pc
  pcNextEq : s.pcNext = s.pc

theorem State.Inv.steady {s : State} (h : s.Inv) : s.Steady :=
  ⟨⟨h.cellsWf, h.eeWf⟩, h.aliasSync, h.unimplementedZero, h.stackBound, h.prescBound, h.waitBound⟩

theorem State.Inv.pcSettled {s : State} (h : s.Inv) : s.PcSettled := ⟨h.pclMirror, h.pcNextEq⟩

/-- The invariant put together again, at the end of a step that took `n` cycles. -/
theorem State.Steady.inv_setCycles {s : State} (h : s.Steady) (hpc : s.PcSettled) (h1 : s.twoCycle = false) {n : Nat}
    (hn : n ≤ 2) : (s.setCycles n).Inv :=
  ⟨h.canonical.1, h.canonical.2, h.aliasSync, h.unimplementedZero, h.stackBound, h.prescBound, h.waitBound, h1,
    hpc.pclMirror, hpc.pcNextEq, hn⟩

/-! ### The steady part under the state's updates -/

/-- The elements that `State.Steady` speaks of. -/
def State.steadyPart (s : State) : Memory × Memory × List ProgAddr × Nat × Nat :=
  (s.cells, s.ee, s.stack, s.prescCount, s.tmr0Wait)

theorem low7_fileAddress_or (f : FileAddr) : low7 (fileAddress f ||| 0x80#8) = f := (low7_eq_iff _ _).2 (.inr rfl)

namespace State.Steady

theorem congr {s t : State} (h : s.Steady) (e : t.steadyPart = s.steadyPart) : t.Steady := by
  simp only [steadyPart, Prod.mk.injEq] at e
  obtain ⟨hc, he, hs, hp, hw⟩ := e
  have hcell (q : Byte) : t.cell q = s.cell q := by rw [State.cell, hc, State.cell]
  refine ⟨h.canonical.congr hc he, fun lo hlo => ?_, fun p hp => ?_, hs ▸ h.stackBound, hp ▸ h.prescBound,
    hw ▸ h.waitBound⟩
  · rw [hcell, hcell, h.aliasSync lo hlo]
  · rw [hcell, h.unimplementedZero p hp]

theorem setW {s : State} (h : s.Steady) (v : Byte) : (s.setW v).Steady := h.congr rfl

theorem setSleeping {s : State} (h : s.Steady) (b : Bool) : (s.setSleeping b).Steady := h.congr rfl

theorem setTwoCycle {s : State} (h : s.Steady) (b : Bool) : (s.setTwoCycle b).Steady := h.congr rfl

theorem setWdtAcc {s : State} (h : s.Steady) (n : Nat) : (s.setWdtAcc n).Steady := h.congr rfl

/-- An implemented cell outside the aliased class may take any byte. -/
theorem setCell {s : State} (h : s.Steady) {p : Byte} (ha : isAliased (low7 p) = false) (hu : isUnimplemented p = false)
    (v : Byte) : (s.setCell p v).Steady := by
  refine ⟨h.canonical.setCell p v, fun lo hlo => ?_, fun q hq => ?_, h.stackBound, h.prescBound, h.waitBound⟩
  · have hne {q : Byte} (hq : low7 q = lo) : q ≠ p := by
      rintro rfl
      simp [hq, hlo] at ha
    rw [State.setCell_cell, State.setCell_cell, if_neg (hne (low7_fileAddress lo)),
      if_neg (hne (low7_fileAddress_or lo)), h.aliasSync lo hlo]
  · have hne : q ≠ p := by
      rintro rfl
      simp [hq] at hu
    rw [State.setCell_cell, if_neg hne, h.unimplementedZero q hq]

/-- The two cells of an implemented register may take any byte together. -/
theorem setShared {s : State} (h : s.Steady) {f : FileAddr} (hu : isUnimplemented (fileAddress f) = false) (v : Byte) :
    (setShared f v s).Steady := by
  refine ⟨(h.canonical.setCell ..).setCell .., fun lo hlo => ?_, fun q hq => ?_, h.stackBound, h.prescBound,
    h.waitBound⟩
  · simp only [setShared_cell, low7_fileAddress, low7_fileAddress_or, h.aliasSync lo hlo]
  · have hne : low7 q ≠ f := by
      rintro rfl
      simp_all [isUnimplemented_iff, ← Bool.not_eq_true]
    rw [setShared_cell, if_neg hne, h.unimplementedZero q hq]

theorem setEeByte {s : State} (h : s.Steady) {i : Byte} (hi : i.toNat < 64) (v : Byte) : (s.setEeByte i v).Steady :=
  ⟨h.canonical.setEeByte v hi, h.aliasSync, h.unimplementedZero, h.stackBound, h.prescBound, h.waitBound⟩

theorem setStack {s : State} (h : s.Steady) {l : List ProgAddr} (hl : l.length ≤ 13) : (s.setStack l).Steady :=
  ⟨h.canonical, h.aliasSync, h.unimplementedZero, hl, h.prescBound, h.waitBound⟩

theorem setPrescCount {s : State} (h : s.Steady) {n : Nat} (hn : n ≤ 255) : (s.setPrescCount n).Steady :=
  ⟨h.canonical, h.aliasSync, h.unimplementedZero, h.stackBound, hn, h.waitBound⟩

theorem setTmr0Wait {s : State} (h : s.Steady) {n : Nat} (hn : n ≤ 2) : (s.setTmr0Wait n).Steady :=
  ⟨h.canonical, h.aliasSync, h.unimplementedZero, h.stackBound, h.prescBound, hn⟩

/-! ### The operations -/

/-- The two cells of an aliased register agree, so writing one bit of it writes one byte to both. -/
theorem writeAliasedBit {s : State} (h : s.Steady) {f : FileAddr} (ha : isAliased f = true)
    (hu : isUnimplemented (fileAddress f) = false) (n : Nat) (b : Bool) :
    (writeAliasedBit (fileAddress f) n b s).Steady := by
  have hne : fileAddress f ||| 0x80#8 ≠ fileAddress f := by
    rw [Ne, ← BitVec.toNat_inj, fileAddress_or_toNat, fileAddress_toNat]
    omega
  have hbyte : (s.setCell (fileAddress f) (withBit (s.cell (fileAddress f)) n b)).cell (fileAddress f ||| 0x80#8) =
      s.cell (fileAddress f) := by
    rw [State.setCell_cell, if_neg hne, h.aliasSync f ha]
  have hshared : Machine.writeAliasedBit (fileAddress f) n b s =
      Machine.setShared f (withBit (s.cell (fileAddress f)) n b) s := by
    rw [Machine.writeAliasedBit, ← h.aliasSync f ha, Machine.setShared]
  exact hshared ▸ h.setShared hu _

theorem setFlag {s : State} (h : s.Steady) (x : Flag) (v : Bool) : (setFlag x v s).Steady :=
  h.writeAliasedBit (f := 3#7) rfl rfl _ v

theorem setIntconBit {s : State} (h : s.Steady) (n : Nat) : (setIntconBit n s).Steady :=
  h.writeAliasedBit (f := 0x0B#7) rfl rfl n true

theorem clearIntconBit {s : State} (h : s.Steady) (n : Nat) : (clearIntconBit n s).Steady :=
  h.writeAliasedBit (f := 0x0B#7) rfl rfl n false

theorem setArithFlags {s : State} (h : s.Steady) (c dc z : Bool) : (setArithFlags c dc z s).Steady :=
  ((h.setFlag ..).setFlag ..).setFlag ..

theorem setPowerFlags {s : State} (h : s.Steady) (x y : Bool) : (setPowerFlags x y s).Steady :=
  (h.setFlag ..).setFlag ..

theorem mirrorPcl {s : State} (h : s.Steady) (v : Byte) : (mirrorPcl v s).Steady := h.setShared (f := 2#7) rfl v

theorem setPC {s : State} (h : s.Steady) (v : ProgAddr) : (setPC v s).Steady :=
  mirrorPcl (h.congr (t := (s.setPcRaw v).setPcNext v) rfl) _

theorem advance {s : State} (h : s.Steady) : (advance s).Steady :=
  mirrorPcl (h.congr (t := s.setPcNext (s.pc + 1#13)) rfl) _

theorem writeEffects {s : State} (h : s.Steady) (p v : Byte) : (writeEffects p v s).Steady := by
  rcases writeEffects_cases p v s with ⟨-, -, e⟩ | ⟨-, e⟩ | ⟨-, e⟩ | ⟨-, -, -, e⟩ <;> rw [e]
  · exact h.setTmr0Wait (Nat.le_refl 2)
  · exact h.congr rfl
  · unfold portbChange
    split_ifs
    · exact h.setIntconBit 1
    · exact h.setIntconBit 0
    · exact h
  · exact h

/-- The write set of an implemented register is its two cells, or one cell outside the aliased class. -/
theorem genericWrite {a : Byte} {r s : State} (h : s.Steady) (hu : isUnimplemented (resolve a r).primary = false)
    (v : Byte) : (genericWrite (resolve a r).writeSet v s).Steady := by
  rcases resolve_cases a r with ⟨lo, -, e⟩ | ⟨p, hp, e⟩ <;> rw [e] at hu ⊢
  · exact h.setShared hu v
  · exact h.setCell hp hu v

theorem memWrite {a v : Byte} {s t : State} (h : s.Steady) (hw : memWrite a v s = .next t) : t.Steady := by
  by_cases hp : (resolve a s).primary = 0x88#8
  · rw [memWrite_of_eecon1 hp] at hw
    have heecon1 {u : State} (hu : u.Steady) (v : Byte) : (u.setCell 0x88#8 v).Steady := hu.setCell rfl rfl v
    split_ifs at hw with _ hadr
    · exact absurd hw (raise_ne_next _ _ _)
    · cases hw
      exact heecon1 ((heecon1 h v).setEeByte (Nat.lt_of_not_le hadr) _) _
    · cases hw
      exact heecon1 h v
  · rw [memWrite_of_ne_eecon1 hp] at hw
    cases hw
    split_ifs with hu
    · exact h
    · exact (h.writeEffects _ v).genericWrite (by simpa using hu) v

theorem dest {d : Dest} {f : FileAddr} {r : Byte} {s t : State} (h : s.Steady) (hd : dest d f r s = .next t) :
    t.Steady := by
  rcases dest_eq_next hd with ⟨-, rfl⟩ | ⟨-, hw⟩
  · exact h.congr rfl
  · exact h.memWrite hw

theorem fileOp {f : FileAddr} {d : Dest} {s t : State} {result : Byte → Byte} {after : Byte → State → State}
    (h : s.Steady) (hafter : ∀ a u, u.Steady → (after a u).Steady) (he : fileOp f d s result after = .next t) :
    t.Steady := by
  obtain ⟨a, u, -, hu, rfl⟩ := fileOp_eq_next.1 he
  exact hafter a u (h.dest hu)

theorem modifyBit {f : FileAddr} {b : BitIndex} {v : Bool} {s t : State} (h : s.Steady)
    (he : modifyBit f b v s = .next t) : t.Steady := by
  obtain ⟨a, -, hw⟩ := withFile_eq_next.1 he
  exact h.memWrite hw

theorem skipIf {s : State} (h : s.Steady) (c : Bool) : (skipIf c s).Steady := by
  rcases skipIf_cases c s with ⟨-, e⟩ | ⟨-, e⟩ <;> rw [e]
  · exact h.congr rfl
  · exact h

theorem testBit {f : FileAddr} {b : BitIndex} {v : Bool} {s t : State} (h : s.Steady)
    (he : testBit f b v s = .next t) : t.Steady := by
  obtain ⟨a, -, hk⟩ := withFile_eq_next.1 he
  cases hk
  exact h.skipIf _

theorem push {v : ProgAddr} {s t : State} (h : s.Steady) (he : push v s = .next t) : t.Steady := by
  obtain ⟨hlen, rfl⟩ := push_eq_next.1 he
  exact h.setStack hlen

theorem withPop {s t : State} {k : ProgAddr → State → Out} (h : s.Steady)
    (hk : ∀ v u, u.Steady → k v u = .next t → t.Steady) (he : withPop s k = .next t) : t.Steady := by
  obtain ⟨v, rest, hstack, hkt⟩ := withPop_eq_next.1 he
  have hlen := h.stackBound
  rw [hstack, List.length_cons] at hlen
  exact hk v _ (h.setStack (by omega)) hkt

theorem clearPrescalerRate {s : State} (h : s.Steady) : (clearPrescalerRate s).Steady := by
  unfold Machine.clearPrescalerRate
  split
  · exact h.setCell rfl rfl _
  · exact h

/-! ### The instructions -/

/-- Every instruction that completes keeps the steady part. -/
theorem exec {i : Instr} {s t : State} (h : s.Steady) (he : exec i s = .next t) : t.Steady := by
  cases i
  case addwf f d | subwf f d => exact h.fileOp (fun _ _ hu => hu.setArithFlags ..) he
  case andwf f d | iorwf f d | xorwf f d | comf f d | movf f d | incf f d | decf f d | rlf f d | rrf f d =>
    exact h.fileOp (fun _ _ hu => hu.setFlag ..) he
  case incfsz f d | decfsz f d => exact h.fileOp (fun _ _ hu => hu.skipIf _) he
  case swapf f d => exact h.fileOp (fun _ _ hu => hu) he
  case bcf f b | bsf f b => exact h.modifyBit he
  case btfsc f b | btfss f b => exact h.testBit he
  case movwf f => exact h.memWrite he
  case clrf f =>
    obtain ⟨u, hu, ht⟩ := andThen_eq_next.1 he
    cases ht
    exact (h.memWrite hu).setFlag ..
  case call k =>
    obtain ⟨u, hu, ht⟩ := andThen_eq_next.1 he
    cases ht
    exact (h.push hu).congr rfl
  case ret =>
    rw [exec_ret] at he
    refine h.withPop (fun v u hu ht => ?_) he
    cases ht
    exact hu.congr rfl
  case retlw k =>
    rw [exec_retlw] at he
    refine h.withPop (fun v u hu ht => ?_) he
    cases ht
    exact hu.congr rfl
  case retfie =>
    rw [exec_retfie] at he
    refine h.withPop (fun v u hu ht => ?_) he
    cases ht
    exact (hu.setIntconBit 7).congr rfl
  all_goals cases he
  case addlw k | sublw k => exact (h.setW _).setArithFlags ..
  case clrw | andlw k | iorlw k | xorlw k => exact (h.setW _).setFlag ..
  case movlw k | goto k => exact h.congr rfl
  case nop => exact h
  case clrwdt => exact (h.setWdtAcc 0).clearPrescalerRate.setPowerFlags ..
  case sleep => exact (((h.setSleeping true).setWdtAcc 0).setPowerFlags true false).congr rfl

/-! ### The timers and the reset -/

theorem tmr0Inc {s : State} (h : s.Steady) : (tmr0Inc s).Steady := by
  have hcount := h.setCell (p := 0x01#8) rfl rfl (s.cell 0x01#8 + 1#8)
  unfold Machine.tmr0Inc
  dsimp only
  split
  · exact hcount.setIntconBit 2
  · exact hcount

theorem tmr0Tick {s : State} (h : s.Steady) : (tmr0Tick s).Steady := by
  obtain ⟨u, b, e, hu⟩ := tmr0Tick_cases s
  have hu : u.Steady := by
    rcases hu with ⟨-, rfl⟩ | rfl | rfl | ⟨hlt, rfl⟩ | rfl
    · exact h.setTmr0Wait (Nat.le_trans (Nat.sub_le ..) h.waitBound)
    · exact h.tmr0Inc
    · exact (h.setPrescCount (Nat.zero_le _)).tmr0Inc
    · exact h.setPrescCount (by have := timer0Ratio_le s.optionReg; omega)
    · exact h
  rw [e]
  exact hu.congr rfl

theorem resetCore {s : State} (h : s.Steady) : (resetCore s).Steady := by
  refine ⟨h.canonical.resetCore, ?_, ?_, Nat.zero_le _, Nat.zero_le _, Nat.zero_le _⟩
  · simp only [resetCore_cell]
    decide
  · simp only [resetCore_cell]
    decide

theorem wdtTick {s : State} (h : s.Steady) : (wdtTick s).Steady := by
  rcases wdtTick_cases s with ⟨-, e⟩ | ⟨-, -, e⟩ | ⟨-, -, e⟩ <;> rw [e]
  · exact h.congr rfl
  · exact ((h.setSleeping false).setWdtAcc 0).setPC _
  · exact h.resetCore.setFlag ..

theorem machineCycle {s : State} (h : s.Steady) : (machineCycle s).Steady := by
  rcases machineCycle_cases s with ⟨-, e⟩ | ⟨-, e⟩ <;> rw [e]
  · exact h.wdtTick
  · exact h.wdtTick.tmr0Tick

end State.Steady

/-! ### Between steps -/

/-- `SetPC` sets PC, its mirror and the next address together (R104). -/
theorem setPC_pcSettled (v : ProgAddr) (s : State) : (setPC v s).PcSettled := by
  refine ⟨?_, rfl⟩
  rw [setPC_cell, if_pos (.inl rfl)]
  rfl

namespace State.PcSettled

theorem tmr0Tick {s : State} (h : s.PcSettled) : (tmr0Tick s).PcSettled := by
  obtain ⟨u, b, e, hu⟩ := tmr0Tick_cases s
  have hmirror := h.pclMirror
  rw [e]
  rcases hu with ⟨-, rfl⟩ | rfl | rfl | ⟨-, rfl⟩ | rfl <;>
    exact ⟨by simpa [tmr0Inc_cell] using hmirror, by simpa using h.pcNextEq⟩

theorem wdtTick {s : State} (h : s.PcSettled) : (wdtTick s).PcSettled := by
  rcases wdtTick_cases s with ⟨-, e⟩ | ⟨-, -, e⟩ | ⟨-, -, e⟩ <;> rw [e]
  · exact ⟨h.pclMirror, h.pcNextEq⟩
  · exact setPC_pcSettled ..
  · exact ⟨by simp [setFlag_cell, powerOnCell, lowByte], by simp⟩

theorem machineCycle {s : State} (h : s.PcSettled) : (machineCycle s).PcSettled := by
  rcases machineCycle_cases s with ⟨-, e⟩ | ⟨-, e⟩ <;> rw [e]
  · exact h.wdtTick
  · exact h.wdtTick.tmr0Tick

end State.PcSettled

@[simp] theorem setPC_twoCycle (v : ProgAddr) (s : State) : (setPC v s).twoCycle = s.twoCycle := by simp [setPC]

@[simp] theorem tmr0Tick_twoCycle (s : State) : (tmr0Tick s).twoCycle = s.twoCycle := by
  obtain ⟨u, b, e, ⟨-, rfl⟩ | rfl | rfl | ⟨-, rfl⟩ | rfl⟩ := tmr0Tick_cases s <;> simp [e]

/-- The timers request no second cycle. -/
theorem machineCycle_twoCycle {s : State} (h : s.twoCycle = false) : (machineCycle s).twoCycle = false := by
  have hwdt : (wdtTick s).twoCycle = false := by
    rcases wdtTick_cases s with ⟨-, e⟩ | ⟨-, -, e⟩ | ⟨-, -, e⟩ <;> simp [e, h]
  rcases machineCycle_cases s with ⟨-, e⟩ | ⟨-, e⟩ <;> simp [e, hwdt]

/-- The end of an instruction restores the whole invariant. -/
theorem State.Steady.inv_finishStep {s : State} (h : s.Steady) : (finishStep s).Inv := by
  have hpc := h.setPC s.pcNext
  have hsettled := setPC_pcSettled s.pcNext s
  rcases finishStep_cases s with ⟨h1, e⟩ | ⟨-, e⟩ <;> rw [e]
  · exact hpc.inv_setCycles hsettled (by simpa using h1) (by decide)
  · have hcycle := hsettled.machineCycle
    exact (hpc.machineCycle.setTwoCycle false).inv_setCycles ⟨hcycle.pclMirror, hcycle.pcNextEq⟩ rfl (by decide)

/-- A word that completes keeps the steady part, whatever it decodes to. -/
theorem State.Steady.execWord {word : ProgWord} {s t : State} (h : s.Steady) (he : execWord word s = .next t) :
    t.Steady := by
  rcases execWord_eq_next.1 he with ⟨-, -, rfl⟩ | ⟨i, -, hi⟩
  · exact h
  · exact h.exec hi

/-- Settles O56, by the kinds of step: each keeps the steady part and ends with PC settled and no second cycle
requested. -/
theorem stepKeepsTheInvariant : Obligations.StepKeepsTheInvariant := by
  intro s t h hstep
  obtain ⟨-, ⟨-, rfl⟩ | ⟨-, -, u, hu, rfl⟩ | ⟨-, -, -, rfl⟩ | ⟨-, -, -, word, u, -, hu, rfl⟩⟩ := step_eq_next hstep
  case inl => exact h.steady.inv_setCycles h.pcSettled h.oneCycle (by decide)
  case inr.inl =>
    obtain ⟨hlen, rfl⟩ := intEntry_eq_next.1 hu
    have hpushed := h.steady.setStack (l := s.pc :: s.stack) hlen
    have hone : (setPC 4 (clearIntconBit 7 (s.setStack (s.pc :: s.stack)))).twoCycle = false := by simpa using h.oneCycle
    exact ((hpushed.clearIntconBit 7).setPC 4).inv_setCycles (setPC_pcSettled ..) hone (by decide)
  case inr.inr.inl =>
    exact h.steady.machineCycle.inv_setCycles h.pcSettled.machineCycle (machineCycle_twoCycle h.oneCycle) (by decide)
  case inr.inr.inr => exact (h.steady.machineCycle.advance.execWord hu).inv_finishStep

end Sys2Proof.Machine
end

section
/-! PROOFS. Program memory and the step's phases (R69, R95, R98, R100 to R105). -/

namespace Sys2Proof.Machine

theorem significantBits_eq_ofNat (u : StoredWord) : significantBits u = BitVec.ofNat 14 u.toNat :=
  (BitVec.ofNat_toNat ..).symm

/-- Settles O59: the two outcomes of the list lookup at the address. -/
theorem programReadGivesTheStoredWord : Obligations.ProgramReadGivesTheStoredWord := by
  intro s addr
  refine ⟨fun u hu => ?_, progRead_of_length_le⟩
  rw [progRead_of_getElem? hu, significantBits_eq_ofNat]

theorem add_one_eq_ofNat (v : ProgAddr) : v + 1 = BitVec.ofNat 13 (v.toNat + 1) := by
  rw [BitVec.ofNat_add, BitVec.ofNat_toNat, BitVec.setWidth_eq]
  rfl

theorem lowByte_eq_ofNat (v : ProgAddr) : lowByte v = BitVec.ofNat 8 v.toNat := (BitVec.ofNat_toNat ..).symm

theorem lowByte_add_one (v : ProgAddr) : lowByte (v + 1) = BitVec.ofNat 8 (v.toNat + 1) := by
  apply BitVec.eq_of_toNat_eq
  rw [lowByte, BitVec.toNat_setWidth, BitVec.toNat_add, BitVec.toNat_ofNat]
  exact Nat.mod_mod_of_dvd _ (by decide : 2 ^ 8 ∣ 2 ^ 13)

/-- A step that fetches `w` runs it on the state the fetch leaves, and finishes. -/
theorem Fetches.step_eq {s : State} {w : ProgWord} (h : Fetches s w) :
    step s = andThen (execWord w (advance (machineCycle s))) fun t => .next (finishStep t) := by
  obtain ⟨u, hu, rfl⟩ := h.fetched
  have hword : progRead (machineCycle s).pc (machineCycle s) = .ok (BitVec.ofNat 14 u.toNat) :=
    (programReadGivesTheStoredWord _ _).1 u (by rwa [machineCycle_params])
  have hrun : step s = runInstruction (machineCycle s) := by
    rw [step, stepCore, if_neg h.loaded, stepLoaded, h.noFault, h.noInterrupt, runningStep, h.awake]
    rfl
  rw [hrun, runInstruction, hword]

/-- Settles O43, one phase at a time. -/
theorem stepRunsTheDecodedInstruction : Obligations.StepRunsTheDecodedInstruction := by
  refine ⟨fun s w i hf hd => ?_, fun c => ?_, fun c => ⟨?_, fun q => ?_⟩, fun v c => ⟨?_, fun q => ?_⟩,
    fun t ht => ?_, fun t ht => ?_⟩
  · rw [hf.step_eq, execWord, hd]
  · rfl
  · rw [← add_one_eq_ofNat]
    exact advance_eq c
  · rw [advance_cell, lowByte_add_one]
  · exact setPC_eq v c
  · rw [setPC_cell, lowByte_eq_ofNat]
  · rcases finishStep_cases t with ⟨-, e⟩ | ⟨h2, -⟩
    · exact e
    · simp [ht] at h2
  · rcases finishStep_cases t with ⟨h1, -⟩ | ⟨-, e⟩
    · simp [ht] at h1
    · exact e

end Sys2Proof.Machine
end

section
/-! PROOFS. The instructions with a file operand: the byte each stores, and where each faults (R59, R66, R67, R112,
R152). -/

namespace Sys2Proof.Machine

/-! ### The stored bytes, as the instructions compute them -/

theorem add_eq_ofNat (a b : Byte) : a + b = BitVec.ofNat 8 (a.toNat + b.toNat) := by
  rw [BitVec.ofNat_add, BitVec.ofNat_toNat, BitVec.ofNat_toNat, BitVec.setWidth_eq, BitVec.setWidth_eq]

theorem sub_eq_ofNat (a b : Byte) : a - b = BitVec.ofNat 8 (256 + a.toNat - b.toNat) := by
  apply BitVec.eq_of_toNat_eq
  have := b.isLt
  rw [BitVec.toNat_sub, BitVec.toNat_ofNat]
  congr 1
  omega

theorem sub_one_eq_ofNat (a : Byte) : a - 1#8 = BitVec.ofNat 8 (a.toNat + 255) := by
  rw [sub_eq_ofNat, Nat.add_comm]
  rfl

theorem not_eq_ofNat (a : Byte) : ~~~a = BitVec.ofNat 8 (255 - a.toNat) := by
  apply BitVec.eq_of_toNat_eq
  rw [BitVec.toNat_not, BitVec.toNat_ofNat]
  omega

theorem rotateLeft_eq_ofNat (a : Byte) (c : Bool) : rotateLeft a c = BitVec.ofNat 8 (2 * a.toNat + c.toNat) := by
  cases c <;> revert a <;> decide

theorem rotateRight_eq_ofNat (a : Byte) (c : Bool) :
    rotateRight a c = BitVec.ofNat 8 (a.toNat / 2 + 128 * c.toNat) := by
  cases c <;> revert a <;> decide

theorem swapNibbles_eq_ofNat (a : Byte) : swapNibbles a = BitVec.ofNat 8 (a.toNat % 16 * 16 + a.toNat / 16) := by
  revert a; decide

/-! ### The faults -/

/-- Where `i` reads operand `f` at `s`, it reads it first, and after the read faults exactly with the store of the byte
`storedByte` gives. -/
def ReadsThenStores (i : Instr) (f : FileAddr) (s : State) : Prop :=
  ∃ k : Byte → Out, exec i s = withFile f s k ∧ ∀ a r, k a = .fault r ↔
    storesTo i = some f ∧ memWrite (fileAddress f) (storedByte i s a) s = .fault r

theorem readsThenStores_of_fileOp {i : Instr} {f : FileAddr} {d : Dest} {s : State} {result : Byte → Byte}
    {after : Byte → State → State} (he : exec i s = fileOp f d s result after) (hs : storesTo i = some f ↔ d = .f)
    (hb : ∀ a, storedByte i s a = result a) : ReadsThenStores i f s := by
  refine ⟨_, he, fun a r => ?_⟩
  simp [andThen_eq_fault, dest_eq_fault, hs, hb]

/-- An instruction with a file operand reads it, but for MOVWF and CLRF, which only store. -/
theorem readsThenStores {i : Instr} {f : FileAddr} (s : State) (hf : fileOperand i = some f) (hm : i ≠ .movwf f)
    (hc : i ≠ .clrf f) : ReadsThenStores i f s := by
  cases i <;> cases hf
  case movwf => exact absurd rfl hm
  case clrf => exact absurd rfl hc
  case bcf b | bsf b => exact ⟨_, rfl, fun a r => by simp [storesTo, storedByte, writeFile, withBit]⟩
  case btfsc b | btfss b => exact ⟨_, rfl, fun a r => by simp [storesTo]⟩
  all_goals refine readsThenStores_of_fileOp rfl (by cases ‹Dest› <;> simp [storesTo]) fun a => Eq.symm ?_
  case addwf => exact add_eq_ofNat ..
  case subwf => exact sub_eq_ofNat ..
  case andwf | iorwf | xorwf | movf => rfl
  case comf => exact not_eq_ofNat a
  case incf | incfsz => exact add_eq_ofNat ..
  case decf | decfsz => exact sub_one_eq_ofNat a
  case rlf => exact rotateLeft_eq_ofNat ..
  case rrf => exact rotateRight_eq_ofNat ..
  case swapf => exact swapNibbles_eq_ofNat a

/-- MOVWF and CLRF fault exactly with their store, which uses no operand byte. -/
theorem exec_eq_fault_of_storeOnly {i : Instr} {f : FileAddr} (hi : i = .movwf f ∨ i = .clrf f) (s : State) (a : Byte)
    (r : Fault) : exec i s = .fault r ↔ memWrite (fileAddress f) (storedByte i s a) s = .fault r := by
  rcases hi with rfl | rfl
  · rfl
  · show andThen (memWrite (fileAddress f) 0x00#8 s) _ = .fault r ↔ memWrite (fileAddress f) 0x00#8 s = .fault r
    simp [andThen_eq_fault]

theorem withFile_of_error {f : FileAddr} {s : State} {e : FaultKind} (h : memRead (fileAddress f) s = .error e)
    (k : Byte → Out) : withFile f s k = .fault (Fault.of e (faultedAt e s)) := by
  rw [withFile, h]
  rfl

theorem withFile_of_ok {f : FileAddr} {s : State} {a : Byte} (h : memRead (fileAddress f) s = .ok a) (k : Byte → Out) :
    withFile f s k = k a := by rw [withFile, h]

/-- An instruction stores to its own file operand. -/
theorem fileOperand_of_storesTo {i : Instr} {f : FileAddr} (h : storesTo i = some f) : fileOperand i = some f := by
  cases i
  case addwf f d | subwf f d | andwf f d | iorwf f d | xorwf f d | comf f d | movf f d | incf f d | decf f d
      | incfsz f d | decfsz f d | rlf f d | rrf f d | swapf f d =>
    cases d with
    | w => cases h
    | f => exact h
  case movwf | clrf | bcf | bsf => exact h
  all_goals cases h

/-- Settles O24: by the read that comes first, or by the store alone for MOVWF and CLRF. -/
theorem fileInstructionsFaultWithTheirAccess : Obligations.FileInstructionsFaultWithTheirAccess := by
  refine ⟨fun s i f e hf hm hc hread => ?_, fun s i f a r hs ha hw => ?_, fun s i f r hf hr => ?_⟩
  · obtain ⟨k, hexec, -⟩ := readsThenStores s hf hm hc
    rw [hexec, withFile_of_error hread]
  · by_cases hi : i = .movwf f ∨ i = .clrf f
    · exact (exec_eq_fault_of_storeOnly hi s a r).2 hw
    · rw [not_or] at hi
      obtain ⟨k, hexec, hk⟩ := readsThenStores s (fileOperand_of_storesTo hs) hi.1 hi.2
      have hread : memRead (fileAddress f) s = .ok a := (ha.resolve_left hi.1).resolve_left hi.2
      rw [hexec, withFile_of_ok hread, hk]
      exact ⟨hs, hw⟩
  · by_cases hi : i = .movwf f ∨ i = .clrf f
    · refine .inr ⟨?_, 0#8, ?_, (exec_eq_fault_of_storeOnly hi s 0#8 r).1 hr⟩
      · rcases hi with rfl | rfl <;> rfl
      · exact hi.imp_right .inl
    · rw [not_or] at hi
      obtain ⟨k, hexec, hk⟩ := readsThenStores s hf hi.1 hi.2
      rw [hexec, withFile_eq_fault] at hr
      rcases hr with ⟨e, hread, hraise⟩ | ⟨a, hread, hka⟩
      · exact .inl ⟨hi.1, hi.2, e, hread, raise_eq_fault.1 hraise⟩
      · obtain ⟨hs, hw⟩ := (hk a r).1 hka
        exact .inr ⟨hs, a, .inr (.inr hread), hw⟩

/-! ### Single instructions -/

/-- Settles O22: BCF and BSF store the byte with the one bit written, after one read. -/
theorem bitClearAndBitSet : Obligations.BitClearAndBitSet := by
  intro s u f b a r hread hstore
  have hmodify (v : Bool) (hbits : ∀ n, n < 8 → r.getLsbD n = if n = b.toNat then v else a.getLsbD n) :
      modifyBit f b v s = .next u := by
    have hr : r = withBit a b.toNat v :=
      BitVec.eq_of_getLsbD_eq fun n hn => by rw [hbits n hn, withBit_getLsbD a _ v n hn]
    rw [modifyBit, withFile_of_ok hread, ← hr]
    exact hstore
  exact ⟨hmodify false, hmodify true⟩

/-- Settles O25: at the fetched state PCL holds the low byte of `A + 1`, and the store of the sum moves the next
address. -/
theorem computedJumpThroughPcl : Obligations.ComputedJumpThroughPcl := by
  intro c
  have hres : resolve (fileAddress 2#7) (advance c) = ⟨0x02#8, [0x02#8, 0x82#8]⟩ := resolve_of_isAliased rfl
  have hread : memRead (fileAddress 2#7) (advance c) = .ok (lowByte (c.pc + 1)) := by
    rw [memRead_of_plain (by rw [hres]; rfl) (by rw [hres]; decide), hres, advance_cell, if_pos (.inl rfl)]
  have hprimary : (resolve (fileAddress 2#7) (advance c)).primary = 0x02#8 := by rw [hres]
  obtain ⟨u, hu⟩ := (writeFaultsOnlyOnCommitOutOfRange (advance c) (fileAddress 2#7)
    (c.w + lowByte (c.pc + 1)) _ hprimary.symm).1 fun h => absurd h.1 (by decide)
  obtain ⟨hframe, hjump, -⟩ := (writeEffectOnEveryCell _ u _ _ _ hprimary.symm hu).2 rfl
  have hexec : fileOp 2#7 .f (advance c) (fun a => c.w + a) (fun a => setAddFlags c.w a) =
      .next (setAddFlags c.w (lowByte (c.pc + 1)) u) := fileOp_eq_next.2 ⟨_, u, hread, hu, rfl⟩
  refine ⟨_, hexec, ?_, ?_, ?_⟩
  · have hlow : (lowByte (c.pc + 1)).toNat = (c.pc.toNat + 1) % 256 := by
      rw [lowByte_add_one, BitVec.toNat_ofNat]
    rw [setAddFlags_pcNext, hjump rfl, advance_cell, if_neg (by decide), BitVec.toNat_add, hlow, Nat.add_comm c.w.toNat]
  · rw [setAddFlags_twoCycle, hframe]
    simp [advance]
  · rw [setAddFlags_pc, hframe]
    simp [advance]

end Sys2Proof.Machine
end

section
/-! PROOFS. The frame of every instruction (R65, R68, R112), as a relation between two states an instruction passes through:
each of its writes keeps it, and it is transitive. -/

namespace Sys2Proof.Machine

/-- The elements no instruction writes. -/
def State.outside (s : State) : Params × ProgAddr × Nat × Bool × Option FaultKind × Nat :=
  (s.params, s.pc, s.prescCount, s.t0ckPrev, s.fault, s.cycles)

/-- From `u` to `t`, only what instruction `i` started in `s` may write has changed. -/
structure InstrFrame (i : Instr) (s u t : State) : Prop where
  cell : ∀ q, q ∉ storedCells i s → t.cell q &&& ~~~ownBits i s q = u.cell q &&& ~~~ownBits i s q
  eeByte : ∀ j, storedPrimary i s ≠ some 0x88#8 ∨ j ≠ s.cell 0x09#8 → t.eeByte j = u.eeByte j
  w : writesW i = false → t.w = u.w
  stack : usesStack i = false → t.stack = u.stack
  sleeping : i ≠ .sleep → t.sleeping = u.sleeping
  wdtAcc : i ≠ .sleep → i ≠ .clrwdt → t.wdtAcc = u.wdtAcc
  tmr0Wait : storedPrimary i s ≠ some 0x01#8 → t.tmr0Wait = u.tmr0Wait
  outside : t.outside = u.outside

/-- A write of one bit changes nothing outside a mask that holds it. -/
theorem withBit_and_not (x : Byte) {n : Nat} (b : Bool) {m : Byte} (h : m.getLsbD n = true) :
    withBit x n b &&& ~~~m = x &&& ~~~m := by
  apply BitVec.eq_of_getLsbD_eq
  intro k hk
  rw [BitVec.getLsbD_and, BitVec.getLsbD_and, withBit_getLsbD x n b k hk]
  split
  · rename_i hkn
    simp [hkn, h]
  · rfl

theorem ownBits_status (i : Instr) (s : State) {q : Byte} (h : q = 0x03#8 ∨ q = 0x83#8) : ownBits i s q = flagMask i :=
  if_pos h

theorem ownBits_intcon (i : Instr) (s : State) {q : Byte} (h : q = 0x0B#8 ∨ q = 0x8B#8) :
    ownBits i s q = if i = .retfie then 0x80#8 else if storedPrimary i s = some 0x06#8 then 0x03#8 else 0x00#8 := by
  rw [ownBits, if_neg (by rcases h with rfl | rfl <;> decide), if_pos h]

theorem storedCells_eq {i : Instr} {f : FileAddr} (h : storesTo i = some f) (s : State) :
    storedCells i s = (resolve (fileAddress f) s).writeSet := by rw [storedCells, h]

theorem storedPrimary_eq {i : Instr} {f : FileAddr} (h : storesTo i = some f) (s : State) :
    storedPrimary i s = some (resolve (fileAddress f) s).primary := by rw [storedPrimary, h]; rfl

namespace InstrFrame

variable {i : Instr} {s u v t : State}

theorem refl : InstrFrame i s u u :=
  ⟨fun _ _ => rfl, fun _ _ => rfl, fun _ => rfl, fun _ => rfl, fun _ => rfl, fun _ _ => rfl, fun _ => rfl, rfl⟩

theorem trans (h : InstrFrame i s u v) (k : InstrFrame i s v t) : InstrFrame i s u t where
  cell q hq := (k.cell q hq).trans (h.cell q hq)
  eeByte j hj := (k.eeByte j hj).trans (h.eeByte j hj)
  w hi := (k.w hi).trans (h.w hi)
  stack hi := (k.stack hi).trans (h.stack hi)
  sleeping hi := (k.sleeping hi).trans (h.sleeping hi)
  wdtAcc h1 h2 := (k.wdtAcc h1 h2).trans (h.wdtAcc h1 h2)
  tmr0Wait hi := (k.tmr0Wait hi).trans (h.tmr0Wait hi)
  outside := k.outside.trans h.outside

/-! ### Elements other than memory -/

theorem setW (h : InstrFrame i s u t) (hi : writesW i = true) (x : Byte) : InstrFrame i s u (t.setW x) :=
  h.trans { refl (u := t) with w := fun hw => by simp [hi] at hw }

theorem setStack (h : InstrFrame i s u t) (hi : usesStack i = true) (l : List ProgAddr) : InstrFrame i s u (t.setStack l) :=
  h.trans { refl (u := t) with stack := fun hs => by simp [hi] at hs }

theorem setPcNext (h : InstrFrame i s u t) (x : ProgAddr) : InstrFrame i s u (t.setPcNext x) :=
  h.trans { refl (u := t) with }

theorem setTwoCycle (h : InstrFrame i s u t) (b : Bool) : InstrFrame i s u (t.setTwoCycle b) :=
  h.trans { refl (u := t) with }

theorem skipIf (h : InstrFrame i s u t) (c : Bool) : InstrFrame i s u (skipIf c t) := by
  rcases skipIf_cases c t with ⟨-, e⟩ | ⟨-, e⟩ <;> rw [e]
  · exact (h.setPcNext _).setTwoCycle true
  · exact h

/-! ### The bits an instruction writes itself -/

/-- Cells that change in the instruction's own bits only. -/
theorem setCells (h : InstrFrame i s u t) {m : Memory}
    (hm : ∀ q, (t.setCells m).cell q &&& ~~~ownBits i s q = t.cell q &&& ~~~ownBits i s q) :
    InstrFrame i s u (t.setCells m) :=
  h.trans { refl (u := t) with cell := fun q _ => hm q }

theorem setFlag (h : InstrFrame i s u t) {x : Flag} {m : Byte} (hi : flagMask i = m)
    (hx : m.getLsbD (flagBit x) = true) (b : Bool) : InstrFrame i s u (setFlag x b t) := by
  rw [setFlag_eq_setCells]
  refine h.setCells fun q => ?_
  rw [← setFlag_eq_setCells, setFlag_cell]
  split_ifs with hq
  · rw [ownBits_status i s hq, hi, withBit_and_not _ b hx]
  · rfl

theorem setZ (h : InstrFrame i s u t) (hi : flagMask i = 0x04#8) (b : Bool) :
    InstrFrame i s u (Machine.setFlag .z b t) := h.setFlag hi rfl b

theorem setC (h : InstrFrame i s u t) (hi : flagMask i = 0x01#8) (b : Bool) :
    InstrFrame i s u (Machine.setFlag .c b t) := h.setFlag hi rfl b

theorem setArithFlags (h : InstrFrame i s u t) (hi : flagMask i = 0x07#8) (c dc z : Bool) :
    InstrFrame i s u (setArithFlags c dc z t) :=
  ((h.setFlag hi rfl c).setFlag hi rfl dc).setFlag hi rfl z

theorem setPowerFlags (h : InstrFrame i s u t) (hi : flagMask i = 0x18#8) (x y : Bool) :
    InstrFrame i s u (setPowerFlags x y t) :=
  (h.setFlag hi rfl x).setFlag hi rfl y

/-- RETFIE sets GIE (R147). -/
theorem setGie (h : InstrFrame .retfie s u t) : InstrFrame .retfie s u (setIntconBit 7 t) := by
  rw [setIntconBit_eq_setCells]
  refine h.setCells fun q => ?_
  rw [← setIntconBit_eq_setCells, setIntconBit_cell]
  split_ifs with hq
  · rw [ownBits_intcon .retfie s hq, if_pos rfl, withBit_and_not _ true rfl]
  · rfl

/-- CLRWDT clears PS where the parameter says so (R150). -/
theorem clearPrescalerRate (h : InstrFrame .clrwdt s u t) (hp : t.params = s.params) :
    InstrFrame .clrwdt s u (clearPrescalerRate t) := by
  rw [clearPrescalerRate_eq_setCells]
  refine h.setCells fun q => ?_
  rw [← clearPrescalerRate_eq_setCells, clearPrescalerRate_cell, hp]
  split_ifs with hq
  · have hown : ownBits .clrwdt s q = 0x07#8 := by simp [ownBits, hq]
    rw [hown, BitVec.and_assoc]
    rfl
  · rfl

/-! ### The store -/

/-- A completed write to the instruction's own operand stays in the frame (R60 to R66). -/
theorem memWrite {f : FileAddr} {r : Byte} (hs : storesTo i = some f)
    (hw : memWrite (fileAddress f) r s = .next t) : InstrFrame i s s t := by
  obtain ⟨hun, him⟩ := writeEffectOnEveryCell s t _ r _ rfl hw
  by_cases hu : isUnimplemented (resolve (fileAddress f) s).primary = true
  · exact hun hu ▸ refl
  obtain ⟨hframe, -, -, hwait, hcell, hee⟩ := him (by simpa using hu)
  have hprim := storedPrimary_eq hs s
  refine ⟨fun q hq => ?_, fun j hj => ?_, fun _ => ?_, fun _ => ?_, fun _ => ?_, fun _ _ => ?_, fun h1 => ?_, ?_⟩
  · rw [storedCells_eq hs, mem_writeSet_iff] at hq
    rw [hcell, if_neg hq]
    have hown (h6 : (resolve (fileAddress f) s).primary = 0x06#8) (hint : q = 0x0B#8 ∨ q = 0x8B#8) :
        ownBits i s q = 0x03#8 := by
      rw [ownBits_intcon i s hint, if_neg (by rintro rfl; cases hs), if_pos (by rw [hprim, h6])]
    split_ifs with h6
    · rw [hown h6.1 h6.2]
      exact withBit_and_not (n := 1) _ true rfl
    · rw [hown h6.1 h6.2]
      exact withBit_and_not (n := 0) _ true rfl
    · rfl
    · rfl
  · rw [hee, if_neg]
    rintro ⟨h88, -, -, hadr⟩
    exact hj.elim (fun h => h (by rw [hprim, h88])) fun h => h hadr
  · rw [hframe]; rfl
  · rw [hframe]; rfl
  · rw [hframe]; rfl
  · rw [hframe]; rfl
  · rw [hwait, if_neg]
    rintro ⟨hp, -⟩
    exact h1 (by rw [hprim, hp])
  · rw [hframe]; rfl

theorem dest {d : Dest} {f : FileAddr} {r : Byte} (hs : d = .f → storesTo i = some f) (hw : d = .w → writesW i = true)
    (hd : dest d f r s = .next t) : InstrFrame i s s t := by
  rcases dest_eq_next hd with ⟨h, rfl⟩ | ⟨h, hm⟩
  · exact refl.setW (hw h) r
  · exact memWrite (hs h) hm

theorem fileOp {d : Dest} {f : FileAddr} {result : Byte → Byte} {after : Byte → State → State}
    (hs : d = .f → storesTo i = some f) (hw : d = .w → writesW i = true)
    (hafter : ∀ a v, InstrFrame i s s v → InstrFrame i s s (after a v)) (he : fileOp f d s result after = .next t) :
    InstrFrame i s s t := by
  obtain ⟨a, v, -, hv, rfl⟩ := fileOp_eq_next.1 he
  exact hafter a v (dest hs hw hv)

theorem modifyBit {f : FileAddr} {b : BitIndex} {x : Bool} (hs : storesTo i = some f)
    (he : modifyBit f b x s = .next t) : InstrFrame i s s t := by
  obtain ⟨a, -, hw⟩ := withFile_eq_next.1 he
  exact memWrite hs hw

theorem testBit {f : FileAddr} {b : BitIndex} {x : Bool} (he : testBit f b x s = .next t) : InstrFrame i s s t := by
  obtain ⟨a, -, hk⟩ := withFile_eq_next.1 he
  cases hk
  exact refl.skipIf _

/-! ### The instructions -/

theorem exec (he : exec i s = .next t) : InstrFrame i s s t := by
  cases i
  case addwf f d | subwf f d =>
    exact fileOp (by rintro rfl; rfl) (by rintro rfl; rfl) (fun _ _ hv => hv.setArithFlags rfl ..) he
  case andwf f d | iorwf f d | xorwf f d | comf f d | movf f d | incf f d | decf f d =>
    exact fileOp (by rintro rfl; rfl) (by rintro rfl; rfl) (fun _ _ hv => hv.setZ rfl _) he
  case rlf f d | rrf f d =>
    exact fileOp (by rintro rfl; rfl) (by rintro rfl; rfl) (fun _ _ hv => hv.setC rfl _) he
  case incfsz f d | decfsz f d =>
    exact fileOp (by rintro rfl; rfl) (by rintro rfl; rfl) (fun _ _ hv => hv.skipIf _) he
  case swapf f d => exact fileOp (by rintro rfl; rfl) (by rintro rfl; rfl) (fun _ _ hv => hv) he
  case bcf f b | bsf f b => exact modifyBit rfl he
  case btfsc f b | btfss f b => exact testBit he
  case movwf f => exact memWrite rfl he
  case clrf f =>
    obtain ⟨u, hu, ht⟩ := andThen_eq_next.1 he
    cases ht
    exact (memWrite rfl hu).setZ rfl true
  case call k =>
    obtain ⟨u, hu, ht⟩ := andThen_eq_next.1 he
    obtain ⟨-, rfl⟩ := push_eq_next.1 hu
    cases ht
    exact ((refl.setStack rfl _).setPcNext _).setTwoCycle true
  case ret =>
    rw [exec_ret] at he
    obtain ⟨v, rest, -, ht⟩ := withPop_eq_next.1 he
    cases ht
    exact ((refl.setStack rfl rest).setPcNext v).setTwoCycle true
  case retlw k =>
    rw [exec_retlw] at he
    obtain ⟨v, rest, -, ht⟩ := withPop_eq_next.1 he
    cases ht
    exact (((refl.setStack rfl rest).setW rfl k).setPcNext v).setTwoCycle true
  case retfie =>
    rw [exec_retfie] at he
    obtain ⟨v, rest, -, ht⟩ := withPop_eq_next.1 he
    cases ht
    exact ((refl.setStack rfl rest).setGie.setPcNext v).setTwoCycle true
  all_goals cases he
  case addlw k | sublw k => exact (refl.setW rfl _).setArithFlags rfl ..
  case clrw | andlw k | iorlw k | xorlw k => exact (refl.setW rfl _).setZ rfl _
  case movlw k => exact refl.setW rfl k
  case goto k => exact (refl.setPcNext _).setTwoCycle true
  case nop => exact refl
  case clrwdt =>
    have hacc : InstrFrame .clrwdt s s (s.setWdtAcc 0) := { refl (u := s) with wdtAcc := fun _ h => absurd rfl h }
    exact (hacc.clearPrescalerRate rfl).setPowerFlags rfl ..
  case sleep =>
    have hsleep : InstrFrame .sleep s s ((s.setSleeping true).setWdtAcc 0) :=
      { refl (u := s) with sleeping := fun h => absurd rfl h, wdtAcc := fun h => absurd rfl h }
    exact (hsleep.setPowerFlags rfl true false).setPcNext _

end InstrFrame

/-- Settles O33: the frame holds from the state an instruction starts in to the one it leaves. -/
theorem instructionFrame : Obligations.InstructionFrame := by
  intro i s t he
  have h := InstrFrame.exec he
  have hout := h.outside
  simp only [State.outside, Prod.mk.injEq] at hout
  exact ⟨h.cell, h.eeByte, h.w, h.stack, h.sleeping, h.wdtAcc, h.tmr0Wait, hout⟩

end Sys2Proof.Machine
end

section
/-! PROOFS. Decoding a word that a row spells: no word is spelled by two rows (R87), so the order of the opcode map does
not matter, and every instruction is read back from its own word. -/

namespace Sys2Proof

/-- Two rows fix some common bit of the word to different values. -/
def OpcodeRow.Apart (r r' : OpcodeRow) : Prop := r.value &&& r'.mask ≠ r'.value &&& r.mask

theorem OpcodeRow.Apart.symm {r r' : OpcodeRow} (h : r.Apart r') : r'.Apart r := Ne.symm h

theorem OpcodeRow.spells_iff {r : OpcodeRow} {w : ProgWord} : r.spells w = true ↔ w &&& r.mask = r.value := beq_iff_eq

theorem OpcodeRow.Apart.not_spells {r r' : OpcodeRow} {w : ProgWord} (h : r.Apart r') (hr : r.spells w = true) :
    ¬ r'.spells w = true := fun hr' => h <| by
  rw [← spells_iff.1 hr, ← spells_iff.1 hr', BitVec.and_assoc, BitVec.and_assoc, BitVec.and_comm r.mask]

/-- The rows of R86 are pairwise disjoint (R87). -/
theorem opcodeRows_apart : opcodeRows.Pairwise OpcodeRow.Apart := by
  unfold OpcodeRow.Apart
  decide

/-- At most one row spells a word (R87). -/
theorem opcodeRow_unique {r r' : OpcodeRow} {w : ProgWord} (hr : r ∈ opcodeRows) (hr' : r' ∈ opcodeRows)
    (hs : r.spells w = true) (hs' : r'.spells w = true) : r = r' := by
  by_contra hne
  have : Std.Symm OpcodeRow.Apart := ⟨fun _ _ => .symm⟩
  exact (opcodeRows_apart.forall hr hr' hne).not_spells hs hs'

/-- `Decode(w)` is an instruction exactly when a row spells `w` and reads the instruction from it. -/
theorem decode_eq_ok_iff {w : ProgWord} {i : Instr} :
    decode w = .ok i ↔ ∃ r ∈ opcodeRows, r.spells w = true ∧ r.build w = i := by
  unfold decode
  cases hf : opcodeRows.find? (fun r => r.spells w) with
  | none =>
    rw [List.find?_eq_none] at hf
    exact ⟨nofun, fun ⟨r, hr, hs, _⟩ => absurd hs (hf r hr)⟩
  | some r' =>
    have hr' := List.mem_of_find?_eq_some hf
    have hs' : r'.spells w = true := List.find?_some (p := (OpcodeRow.spells · w)) hf
    refine ⟨fun h => ⟨r', hr', hs', Except.ok.inj h⟩, fun ⟨r, hr, hs, hb⟩ => ?_⟩
    rw [← hb, opcodeRow_unique hr hr' hs hs']

/-- `Decode(w)` rejects a word exactly when no row spells it. -/
theorem decode_eq_error_iff {w : ProgWord} :
    (∃ e, decode w = .error e) ↔ ¬ ∃ r ∈ opcodeRows, r.spells w = true := by
  cases hd : decode w with
  | ok i =>
    obtain ⟨r, hr, hs, -⟩ := decode_eq_ok_iff.1 hd
    exact ⟨nofun, fun h => absurd ⟨r, hr, hs⟩ h⟩
  | error e =>
    refine ⟨fun _ ⟨r, hr, hs⟩ => ?_, fun _ => ⟨e, rfl⟩⟩
    cases hd.symm.trans (decode_eq_ok_iff.2 ⟨r, hr, hs, rfl⟩)

/-- Every instruction has its row. -/
theorem row_of_instr : ∀ i : Instr, Laws.Encoding.Statement i
  | .addwf f d => Laws.Encoding.addwf f d
  | .subwf f d => Laws.Encoding.subwf f d
  | .andwf f d => Laws.Encoding.andwf f d
  | .iorwf f d => Laws.Encoding.iorwf f d
  | .xorwf f d => Laws.Encoding.xorwf f d
  | .comf f d => Laws.Encoding.comf f d
  | .movf f d => Laws.Encoding.movf f d
  | .incf f d => Laws.Encoding.incf f d
  | .decf f d => Laws.Encoding.decf f d
  | .incfsz f d => Laws.Encoding.incfsz f d
  | .decfsz f d => Laws.Encoding.decfsz f d
  | .bcf f b => Laws.Encoding.bcf f b
  | .bsf f b => Laws.Encoding.bsf f b
  | .btfsc f b => Laws.Encoding.btfsc f b
  | .btfss f b => Laws.Encoding.btfss f b
  | .rlf f d => Laws.Encoding.rlf f d
  | .rrf f d => Laws.Encoding.rrf f d
  | .movwf f => Laws.Encoding.movwf f
  | .clrf f => Laws.Encoding.clrf f
  | .clrw => Laws.Encoding.clrw
  | .swapf f d => Laws.Encoding.swapf f d
  | .addlw k => Laws.Encoding.addlw k
  | .sublw k => Laws.Encoding.sublw k
  | .andlw k => Laws.Encoding.andlw k
  | .iorlw k => Laws.Encoding.iorlw k
  | .xorlw k => Laws.Encoding.xorlw k
  | .movlw k => Laws.Encoding.movlw k
  | .goto k => Laws.Encoding.goto k
  | .call k => Laws.Encoding.call k
  | .ret => Laws.Encoding.ret
  | .retlw k => Laws.Encoding.retlw k
  | .retfie => Laws.Encoding.retfie
  | .nop => Laws.Encoding.nop
  | .clrwdt => Laws.Encoding.clrwdt
  | .sleep => Laws.Encoding.sleep

/-- Settles O1: the instruction's row spells its word, and the decoder finds no other row. -/
theorem decodeEncodeRoundTrip : Obligations.DecodeEncodeRoundTrip := fun i => decode_eq_ok_iff.2 (row_of_instr i)

theorem encode_injective {i j : Instr} (h : encode i = encode j) : i = j :=
  Except.ok.inj <| by rw [← decodeEncodeRoundTrip i, h, decodeEncodeRoundTrip j]

end Sys2Proof
end

section
/-! PROOFS. Encoding what a row reads: a word that a row spells, its don't-care bits cleared, is the word the encoder
writes for the instruction the row reads from it (R84 to R88). -/

namespace Sys2Proof

/-- What a row's reading and the encoder agree on, `x` being the row's don't-care bits: every word the row spells is, with
these bits cleared, the word of the instruction read from it. -/
structure OpcodeRow.EncodesBack (r : OpcodeRow) (x : ProgWord) : Prop where
  dontCareBits_build : ∀ w, dontCareBits (r.build w) = x
  not_and_mask : ~~~x &&& r.mask = r.mask
  encode_build : ∀ {w}, r.spells w = true → encode (r.build w) = w &&& ~~~x

/-- Don't-care bits do not matter to whether the row spells a word. -/
theorem OpcodeRow.EncodesBack.spells_and_not {r : OpcodeRow} {x : ProgWord} (h : r.EncodesBack x) (w : ProgWord) :
    r.spells (w &&& ~~~x) = r.spells w := by
  rw [spells, BitVec.and_assoc, h.not_and_mask, spells]

/-! ### The word put together from its fields (R84, R85) -/

/-- A word whose high bits under `m` are `op`: its high bits outside `m` cleared, it is `op` and its low bits. -/
theorem append_low_eq {n k : Nat} {w : BitVec (n + k)} {m op : BitVec n}
    (h : w &&& (m ++ 0#k : BitVec (n + k)) = (op ++ 0#k : BitVec (n + k))) :
    (op ++ w.extractLsb' 0 k : BitVec (n + k)) = w &&& (m ++ BitVec.allOnes k : BitVec (n + k)) := by
  obtain ⟨hi, lo, rfl⟩ : ∃ (hi : BitVec n) (lo : BitVec k), w = hi ++ lo :=
    ⟨w.extractLsb' k n, w.extractLsb' 0 k, by
      rw [BitVec.extractLsb'_append_extractLsb'_eq_extractLsb' (by omega), BitVec.extractLsb'_eq_self]⟩
  rw [BitVec.and_append, BitVec.and_zero, BitVec.append_left_inj] at h
  rw [BitVec.and_append, BitVec.and_allOnes, h, BitVec.extractLsb'_append_eq_right]

theorem bit_fieldD (w : ProgWord) : (fieldD w).bit = w.extractLsb' 7 1 := by
  apply BitVec.eq_of_getLsbD_eq
  intro i hi
  obtain rfl : i = 0 := by omega
  cases h : w[7] <;> simp [fieldD, h, Dest.bit]

theorem bit_append_fieldF (w : ProgWord) :
    ((fieldD w).bit ++ fieldF w : BitVec (1 + 7)) = w.extractLsb' 0 8 := by
  rw [bit_fieldD]
  exact BitVec.extractLsb'_append_extractLsb'_eq_extractLsb' rfl

theorem fieldB_append_fieldF (w : ProgWord) : (fieldB w ++ fieldF w : BitVec (3 + 7)) = w.extractLsb' 0 10 :=
  BitVec.extractLsb'_append_extractLsb'_eq_extractLsb' rfl

theorem encodeBit_eq (op : BitVec 4) (f : FileAddr) (b : BitIndex) :
    encodeBit op f b = (op ++ (b ++ f : BitVec (3 + 7)) : BitVec (4 + 10)) := BitVec.append_assoc ..

/-! ### One lemma per format -/

theorem not_zero_and (m : ProgWord) : ~~~0#14 &&& m = m := by rw [BitVec.not_zero, BitVec.allOnes_and]

theorem encodesBack_lit {mask value : ProgWord} (m : BitVec 6) {op : BitVec 6} {x : ProgWord} {i : Byte → Instr}
    (he : ∀ k, encode (i k) = encodeLit op k) (hx : ∀ k, dontCareBits (i k) = x)
    (hm : mask = (m ++ 0#8 : BitVec (6 + 8))) (hv : value = (op ++ 0#8 : BitVec (6 + 8)))
    (hnot : ~~~x = (m ++ BitVec.allOnes 8 : BitVec (6 + 8))) : (rowLit mask value i).EncodesBack x where
  dontCareBits_build w := hx _
  not_and_mask := by
    rw [hnot]
    show _ &&& mask = mask
    rw [hm, BitVec.and_append, BitVec.and_self, BitVec.and_zero]
  encode_build {w} hs := by
    have hs' : w &&& mask = value := OpcodeRow.spells_iff.1 hs
    rw [hm, hv] at hs'
    rw [hnot]
    exact (he _).trans (append_low_eq hs')

theorem encodesBack_fd {value : ProgWord} {op : BitVec 6} {i : FileAddr → Dest → Instr}
    (he : ∀ f d, encode (i f d) = encodeFD op f d) (hx : ∀ f d, dontCareBits (i f d) = 0)
    (hv : value = (op ++ 0#8 : BitVec (6 + 8))) : (rowFD value i).EncodesBack 0 where
  dontCareBits_build w := hx _ _
  not_and_mask := not_zero_and _
  encode_build {w} hs := by
    have hs' : w &&& 0x3F00#14 = value := OpcodeRow.spells_iff.1 hs
    refine (he _ _).trans ?_
    rw [encodeFD_eq, bit_append_fieldF]
    exact append_low_eq (m := 0x3F#6) (hs'.trans hv)

theorem encodesBack_f {value : ProgWord} {op : BitVec 6} {i : FileAddr → Instr}
    (he : ∀ f, encode (i f) = encodeF op f) (hx : ∀ f, dontCareBits (i f) = 0)
    (hv : value = (op ++ 1#1 ++ 0#7 : BitVec (6 + 1 + 7))) : (rowF value i).EncodesBack 0 where
  dontCareBits_build w := hx _
  not_and_mask := not_zero_and _
  encode_build {w} hs := by
    have hs' : w &&& 0x3F80#14 = value := OpcodeRow.spells_iff.1 hs
    exact (he _).trans (append_low_eq (m := 0x7F#7) (hs'.trans hv))

theorem encodesBack_bit {value : ProgWord} {op : BitVec 4} {i : FileAddr → BitIndex → Instr}
    (he : ∀ f b, encode (i f b) = encodeBit op f b) (hx : ∀ f b, dontCareBits (i f b) = 0)
    (hv : value = (op ++ 0#10 : BitVec (4 + 10))) : (rowBit value i).EncodesBack 0 where
  dontCareBits_build w := hx _ _
  not_and_mask := not_zero_and _
  encode_build {w} hs := by
    have hs' : w &&& 0x3C00#14 = value := OpcodeRow.spells_iff.1 hs
    refine (he _ _).trans ?_
    rw [encodeBit_eq, fieldB_append_fieldF]
    exact append_low_eq (m := 0xF#4) (hs'.trans hv)

theorem encodesBack_ctl {value : ProgWord} {op : BitVec 3} {i : PageAddr → Instr}
    (he : ∀ k, encode (i k) = encodeCtl op k) (hx : ∀ k, dontCareBits (i k) = 0)
    (hv : value = (op ++ 0#11 : BitVec (3 + 11))) : (rowCtl value i).EncodesBack 0 where
  dontCareBits_build w := hx _
  not_and_mask := not_zero_and _
  encode_build {w} hs := by
    have hs' : w &&& 0x3800#14 = value := OpcodeRow.spells_iff.1 hs
    exact (he _).trans (append_low_eq (m := 0x7#3) (hs'.trans hv))

theorem encodesBack_fixed {mask : ProgWord} {i : Instr} (hnot : ~~~dontCareBits i = mask) :
    (rowFixed mask (encode i) i).EncodesBack (dontCareBits i) where
  dontCareBits_build _ := rfl
  not_and_mask := by
    rw [hnot]
    exact BitVec.and_self
  encode_build {w} hs := by
    rw [hnot]
    exact (OpcodeRow.spells_iff.1 hs).symm

/-! ### The opcode map, one row at a time -/

theorem encodesBack_fileAlu : ∀ r ∈ rowsFileAlu, ∃ x, r.EncodesBack x := by
  simp only [rowsFileAlu, List.forall_mem_cons]
  refine ⟨?_, ?_, ?_, ?_, ?_, ?_, ?_, nofun⟩ <;> exact ⟨_, encodesBack_fd (fun _ _ => rfl) (fun _ _ => rfl) rfl⟩

theorem encodesBack_incBit : ∀ r ∈ rowsIncBit, ∃ x, r.EncodesBack x := by
  simp only [rowsIncBit, List.forall_mem_cons]
  refine ⟨?incf, ?decf, ?incfsz, ?decfsz, ?bcf, ?bsf, ?btfsc, ?btfss, nofun⟩
  case incf | decf | incfsz | decfsz => exact ⟨_, encodesBack_fd (fun _ _ => rfl) (fun _ _ => rfl) rfl⟩
  case bcf | bsf | btfsc | btfss => exact ⟨_, encodesBack_bit (fun _ _ => rfl) (fun _ _ => rfl) rfl⟩

theorem encodesBack_rotateMove : ∀ r ∈ rowsRotateMove, ∃ x, r.EncodesBack x := by
  simp only [rowsRotateMove, List.forall_mem_cons]
  refine ⟨?rlf, ?rrf, ?movwf, ?clrf, ?clrw, ?swapf, nofun⟩
  case rlf | rrf | swapf => exact ⟨_, encodesBack_fd (fun _ _ => rfl) (fun _ _ => rfl) rfl⟩
  case movwf | clrf => exact ⟨_, encodesBack_f (fun _ => rfl) (fun _ => rfl) rfl⟩
  case clrw => exact ⟨_, encodesBack_fixed (i := .clrw) rfl⟩

theorem encodesBack_literal : ∀ r ∈ rowsLiteral, ∃ x, r.EncodesBack x := by
  simp only [rowsLiteral, List.forall_mem_cons]
  refine ⟨?addlw, ?sublw, ?andlw, ?iorlw, ?xorlw, ?movlw, nofun⟩
  case addlw | sublw => exact ⟨_, encodesBack_lit 0x3E#6 (fun _ => rfl) (fun _ => rfl) rfl rfl rfl⟩
  case andlw | iorlw | xorlw => exact ⟨_, encodesBack_lit 0x3F#6 (fun _ => rfl) (fun _ => rfl) rfl rfl rfl⟩
  case movlw => exact ⟨_, encodesBack_lit 0x3C#6 (fun _ => rfl) (fun _ => rfl) rfl rfl rfl⟩

theorem encodesBack_controlMisc : ∀ r ∈ rowsControlMisc, ∃ x, r.EncodesBack x := by
  simp only [rowsControlMisc, List.forall_mem_cons]
  refine ⟨?goto, ?call, ?ret, ?retlw, ?retfie, ?nop, ?clrwdt, ?sleep, nofun⟩
  case goto | call => exact ⟨_, encodesBack_ctl (fun _ => rfl) (fun _ => rfl) rfl⟩
  case retlw => exact ⟨_, encodesBack_lit 0x3C#6 (fun _ => rfl) (fun _ => rfl) rfl rfl rfl⟩
  case ret => exact ⟨_, encodesBack_fixed (i := .ret) rfl⟩
  case retfie => exact ⟨_, encodesBack_fixed (i := .retfie) rfl⟩
  case nop => exact ⟨_, encodesBack_fixed (i := .nop) rfl⟩
  case clrwdt => exact ⟨_, encodesBack_fixed (i := .clrwdt) rfl⟩
  case sleep => exact ⟨_, encodesBack_fixed (i := .sleep) rfl⟩

theorem opcodeRow_encodesBack : ∀ r ∈ opcodeRows, ∃ x, r.EncodesBack x := by
  simp only [opcodeRows, List.forall_mem_append]
  exact ⟨⟨⟨⟨encodesBack_fileAlu, encodesBack_incBit⟩, encodesBack_rotateMove⟩, encodesBack_literal⟩, encodesBack_controlMisc⟩

/-- Settles O2. A word that decodes to `i` is spelled by a row that reads `i` from it, and the encoder agrees with the row.
Back, the row that spells the word of `i` spells the variant too, and what it reads from it has the same word as `i`. -/
theorem spellingsAreDontCareVariants : Obligations.SpellingsAreDontCareVariants := by
  refine fun w i => ⟨fun hd => ?_, fun hw => ?_⟩
  · obtain ⟨r, hr, hs, rfl⟩ := decode_eq_ok_iff.1 hd
    obtain ⟨x, hx⟩ := opcodeRow_encodesBack r hr
    rw [hx.dontCareBits_build, hx.encode_build hs]
  · obtain ⟨r, hr, hs, hb⟩ := row_of_instr i
    obtain ⟨x, hx⟩ := opcodeRow_encodesBack r hr
    have hdc : dontCareBits i = x := hb ▸ hx.dontCareBits_build (encode i)
    rw [hdc] at hw
    have hsw : r.spells w = true := by rw [← hx.spells_and_not, hw, hs]
    exact decode_eq_ok_iff.2 ⟨r, hr, hsw, encode_injective ((hx.encode_build hsw).trans hw)⟩

/-- Settles O4: each of the words is the instruction's own, written out. -/
theorem sampleWordsDecode : Obligations.SampleWordsDecode :=
  have hown {w : ProgWord} {i : Instr} (h : w = encode i) : decode w = .ok i := h ▸ decodeEncodeRoundTrip i
  ⟨hown rfl, hown rfl, hown rfl, hown rfl, hown rfl, hown rfl, hown rfl⟩

end Sys2Proof
end

section
/-! PROOFS. The words that each group of rows spells, as ranges of numbers, and so the words that none spells (R86, R89). -/

namespace Sys2Proof

/-- A mask of the bits from `k` up leaves the multiple of `2 ^ k` below the word. -/
theorem toNat_and_highMask (w : ProgWord) (k : Nat) :
    (w &&& (BitVec.allOnes 14 <<< k)).toNat = w.toNat / 2 ^ k * 2 ^ k := by
  rw [← BitVec.shiftLeft_ushiftRight, BitVec.toNat_shiftLeft, BitVec.toNat_ushiftRight, Nat.shiftLeft_eq,
    Nat.shiftRight_eq_div_pow, Nat.mod_eq_of_lt ((Nat.div_mul_le_self ..).trans_lt w.isLt)]

/-- A row that fixes the bits from `k` up spells the `2 ^ k` words from its value on. -/
theorem OpcodeRow.spells_iff_of_highMask {r : OpcodeRow} {w : ProgWord} (k : Nat) (hm : r.mask = BitVec.allOnes 14 <<< k) :
    r.spells w = true ↔ w.toNat / 2 ^ k * 2 ^ k = r.value.toNat := by
  rw [spells_iff, hm, ← BitVec.toNat_inj, toNat_and_highMask]

/-! ### One lemma per kind of row -/

theorem rowFD_spells_iff {value w : ProgWord} {i : FileAddr → Dest → Instr} :
    (rowFD value i).spells w = true ↔ w.toNat / 2 ^ 8 * 2 ^ 8 = value.toNat := OpcodeRow.spells_iff_of_highMask 8 rfl

theorem rowF_spells_iff {value w : ProgWord} {i : FileAddr → Instr} :
    (rowF value i).spells w = true ↔ w.toNat / 2 ^ 7 * 2 ^ 7 = value.toNat := OpcodeRow.spells_iff_of_highMask 7 rfl

theorem rowBit_spells_iff {value w : ProgWord} {i : FileAddr → BitIndex → Instr} :
    (rowBit value i).spells w = true ↔ w.toNat / 2 ^ 10 * 2 ^ 10 = value.toNat := OpcodeRow.spells_iff_of_highMask 10 rfl

theorem rowCtl_spells_iff {value w : ProgWord} {i : PageAddr → Instr} :
    (rowCtl value i).spells w = true ↔ w.toNat / 2 ^ 11 * 2 ^ 11 = value.toNat := OpcodeRow.spells_iff_of_highMask 11 rfl

theorem rowLit_spells_iff {value w : ProgWord} {i : Byte → Instr} (mask : ProgWord) (k : Nat)
    (hm : mask = BitVec.allOnes 14 <<< k) :
    (rowLit mask value i).spells w = true ↔ w.toNat / 2 ^ k * 2 ^ k = value.toNat :=
  OpcodeRow.spells_iff_of_highMask k hm

theorem rowFixed_spells_iff {value w : ProgWord} {i : Instr} (mask : ProgWord) (k : Nat)
    (hm : mask = BitVec.allOnes 14 <<< k) :
    (rowFixed mask value i).spells w = true ↔ w.toNat / 2 ^ k * 2 ^ k = value.toNat :=
  OpcodeRow.spells_iff_of_highMask k hm

/-- The NOP row is the only one whose don't-care bits, 6 and 5, lie between fixed bits. -/
theorem nop_spells_iff {w : ProgWord} :
    (rowFixed 0x3F9F#14 0x0000#14 .nop).spells w = true ↔ w.toNat / 2 ^ 7 * 2 ^ 7 = 0 ∧ w.toNat % 2 ^ 5 = 0 := by
  have hmask : w &&& 0x3F9F#14 = w &&& (BitVec.allOnes 14 <<< 7) ||| w &&& 0x1F#14 :=
    BitVec.and_or_distrib_left (y := BitVec.allOnes 14 <<< 7) (z := 0x1F#14)
  have hlow : (w &&& 0x1F#14).toNat = w.toNat % 2 ^ 5 := Nat.and_two_pow_sub_one_eq_mod w.toNat 5
  rw [OpcodeRow.spells_iff]
  show w &&& 0x3F9F#14 = 0x0000#14 ↔ _
  rw [hmask, BitVec.or_eq_zero_iff, ← toNat_and_highMask, ← hlow]
  simp only [← BitVec.toNat_inj, BitVec.toNat_ofNat, Nat.zero_mod]

/-! ### The words of each group of rows -/

theorem fileAlu_spells_iff (w : ProgWord) : (∃ r ∈ rowsFileAlu, r.spells w = true) ↔
    (0x0200 ≤ w.toNat ∧ w.toNat ≤ 0x02FF) ∨ (0x0400 ≤ w.toNat ∧ w.toNat ≤ 0x09FF) := by
  simp only [rowsFileAlu, List.exists_mem_cons_iff, List.not_mem_nil, false_and, exists_false, or_false,
    BitVec.ofNat_eq_ofNat, BitVec.reduceToNat, rowFD_spells_iff]
  omega

theorem incBit_spells_iff (w : ProgWord) : (∃ r ∈ rowsIncBit, r.spells w = true) ↔
    (0x0300 ≤ w.toNat ∧ w.toNat ≤ 0x03FF) ∨ (0x0A00 ≤ w.toNat ∧ w.toNat ≤ 0x0BFF) ∨
    (0x0F00 ≤ w.toNat ∧ w.toNat ≤ 0x1FFF) := by
  simp only [rowsIncBit, List.exists_mem_cons_iff, List.not_mem_nil, false_and, exists_false, or_false,
    BitVec.ofNat_eq_ofNat, BitVec.reduceToNat, rowFD_spells_iff, rowBit_spells_iff]
  omega

theorem rotateMove_spells_iff (w : ProgWord) : (∃ r ∈ rowsRotateMove, r.spells w = true) ↔
    (0x0080 ≤ w.toNat ∧ w.toNat ≤ 0x01FF) ∨ (0x0C00 ≤ w.toNat ∧ w.toNat ≤ 0x0EFF) := by
  simp only [rowsRotateMove, List.exists_mem_cons_iff, List.not_mem_nil, false_and, exists_false, or_false,
    BitVec.ofNat_eq_ofNat, BitVec.reduceToNat, rowFD_spells_iff, rowF_spells_iff, rowFixed_spells_iff 0x3F80#14 7 rfl]
  omega

theorem literal_spells_iff (w : ProgWord) : (∃ r ∈ rowsLiteral, r.spells w = true) ↔
    (0x3000 ≤ w.toNat ∧ w.toNat ≤ 0x33FF) ∨ (0x3800 ≤ w.toNat ∧ w.toNat ≤ 0x3AFF) ∨ 0x3C00 ≤ w.toNat := by
  simp only [rowsLiteral, List.exists_mem_cons_iff, List.not_mem_nil, false_and, exists_false, or_false,
    BitVec.ofNat_eq_ofNat, BitVec.reduceToNat, rowLit_spells_iff 0x3F00#14 8 rfl, rowLit_spells_iff 0x3E00#14 9 rfl,
    rowLit_spells_iff 0x3C00#14 10 rfl]
  omega

theorem controlMisc_spells_iff (w : ProgWord) : (∃ r ∈ rowsControlMisc, r.spells w = true) ↔
    (0x2000 ≤ w.toNat ∧ w.toNat ≤ 0x2FFF) ∨ (0x3400 ≤ w.toNat ∧ w.toNat ≤ 0x37FF) ∨ w.toNat = 0x08 ∨ w.toNat = 0x09 ∨
    w.toNat = 0x63 ∨ w.toNat = 0x64 ∨ w.toNat = 0x00 ∨ w.toNat = 0x20 ∨ w.toNat = 0x40 ∨ w.toNat = 0x60 := by
  simp only [rowsControlMisc, List.exists_mem_cons_iff, List.not_mem_nil, false_and, exists_false, or_false,
    BitVec.ofNat_eq_ofNat, BitVec.reduceToNat, rowCtl_spells_iff, rowLit_spells_iff 0x3C00#14 10 rfl,
    rowFixed_spells_iff 0x3FFF#14 0 rfl, nop_spells_iff]
  omega

/-- Settles O3: the ranges are what the five groups of rows leave. -/
theorem unmatchedWordsAreTheSevenRanges : Obligations.UnmatchedWordsAreTheSevenRanges := by
  intro w
  simp only [decode_eq_error_iff, opcodeRows, List.mem_append, or_and_right, exists_or, fileAlu_spells_iff,
    incBit_spells_iff, rotateMove_spells_iff, literal_spells_iff, controlMisc_spells_iff]
  omega

end Sys2Proof
end

section
/-! PROOFS. The second-cycle request (R45, R110): what leaves it as it was, and the instructions that make it. -/

namespace Sys2Proof.Machine

theorem memWrite_twoCycle {a v : Byte} {s t : State} (h : memWrite a v s = .next t) : t.twoCycle = s.twoCycle := by
  obtain ⟨hun, him⟩ := writeEffectOnEveryCell s t a v _ rfl h
  cases hu : isUnimplemented (resolve a s).primary with
  | true => rw [hun hu]
  | false =>
    obtain ⟨hframe, -⟩ := him hu
    rw [hframe]
    rfl

theorem dest_twoCycle {d : Dest} {f : FileAddr} {r : Byte} {s t : State} (h : dest d f r s = .next t) :
    t.twoCycle = s.twoCycle := by
  rcases dest_eq_next h with ⟨-, rfl⟩ | ⟨-, hw⟩
  · rfl
  · exact memWrite_twoCycle hw

theorem fileOp_twoCycle {f : FileAddr} {d : Dest} {s t : State} {result : Byte → Byte} {after : Byte → State → State}
    (h : fileOp f d s result after = .next t) (hafter : ∀ a u, (after a u).twoCycle = u.twoCycle) :
    t.twoCycle = s.twoCycle := by
  obtain ⟨a, u, -, hu, rfl⟩ := fileOp_eq_next.1 h
  rw [hafter, dest_twoCycle hu]

theorem modifyBit_twoCycle {f : FileAddr} {b : BitIndex} {v : Bool} {s t : State} (h : modifyBit f b v s = .next t) :
    t.twoCycle = s.twoCycle := by
  obtain ⟨a, -, hw⟩ := withFile_eq_next.1 h
  exact memWrite_twoCycle hw

@[simp] theorem clearPrescalerRate_twoCycle (s : State) : (clearPrescalerRate s).twoCycle = s.twoCycle := by
  rw [clearPrescalerRate_eq_setCells, State.setCells_twoCycle]

/-- A skip requests the second cycle (R109). -/
@[simp] theorem skipIf_twoCycle (c : Bool) (s : State) : (skipIf c s).twoCycle = (c || s.twoCycle) := by
  rcases skipIf_cases c s with ⟨rfl, e⟩ | ⟨rfl, e⟩ <;> simp [e]

/-- A control transfer requests the second cycle (R110). -/
@[simp] theorem jumpTo_twoCycle (v : ProgAddr) (s : State) : (jumpTo v s).twoCycle = true := rfl

/-- A pop followed by a request for the second cycle. -/
theorem twoCycle_of_withPop {s t : State} {k : ProgAddr → State → State}
    (h : withPop s (fun v u => .next (k v u)) = .next t) (hk : ∀ v u, (k v u).twoCycle = true) : t.twoCycle = true := by
  obtain ⟨v, rest, -, ht⟩ := withPop_eq_next.1 h
  cases ht
  exact hk v _

/-- INCFSZ and DECFSZ request the second cycle exactly when the operand is the byte whose result is 0. -/
theorem fileOp_skip_twoCycle_iff {f : FileAddr} {d : Dest} {s t : State} {result : Byte → Byte} {x : Byte}
    (h : fileOp f d s result (fun a => skipIf (isZero (result a))) = .next t) (hs : s.twoCycle = false)
    (hx : ∀ a, result a = 0#8 ↔ a = x) : t.twoCycle = true ↔ memRead (fileAddress f) s = .ok x := by
  obtain ⟨a, u, hread, hu, rfl⟩ := fileOp_eq_next.1 h
  simp [isZero, dest_twoCycle hu, hs, hx, hread]

/-- BTFSC and BTFSS request the second cycle exactly when the tested bit has the value they skip on. -/
theorem testBit_twoCycle_iff {f : FileAddr} {b : BitIndex} {v : Bool} {s t : State} (h : testBit f b v s = .next t)
    (hs : s.twoCycle = false) :
    t.twoCycle = true ↔ ∃ a, memRead (fileAddress f) s = .ok a ∧ a.getLsbD b.toNat = v := by
  obtain ⟨a, hread, ht⟩ := withFile_eq_next.1 h
  cases ht
  simp [hs, hread]

/-- Settles O34, by the instruction: those outside R110's list leave the request as it was. -/
theorem secondCycleRequests : Obligations.SecondCycleRequests := by
  intro i s t he hs
  have hnever {u : State} (hu : u.twoCycle = s.twoCycle) : u.twoCycle = true ↔ False := by simp [hu, hs]
  have halways {u : State} (hu : u.twoCycle = true) : u.twoCycle = true ↔ True := iff_true_intro hu
  cases i
  case addwf f d | subwf f d | andwf f d | iorwf f d | xorwf f d | comf f d | movf f d | incf f d | decf f d
      | rlf f d | rrf f d | swapf f d =>
    exact hnever (fileOp_twoCycle he (by simp))
  case bcf f b | bsf f b => exact hnever (modifyBit_twoCycle he)
  case movwf f => exact hnever (memWrite_twoCycle he)
  case clrf f =>
    obtain ⟨u, hu, ht⟩ := andThen_eq_next.1 he
    cases ht
    exact hnever ((setFlag_twoCycle ..).trans (memWrite_twoCycle hu))
  case incfsz f d =>
    refine fileOp_skip_twoCycle_iff he hs fun a => ?_
    revert a; decide
  case decfsz f d =>
    refine fileOp_skip_twoCycle_iff he hs fun a => ?_
    revert a; decide
  case btfsc f b | btfss f b => exact testBit_twoCycle_iff he hs
  case ret => exact halways (twoCycle_of_withPop ((exec_ret s).symm.trans he) fun _ _ => jumpTo_twoCycle ..)
  case retlw k => exact halways (twoCycle_of_withPop ((exec_retlw k s).symm.trans he) fun _ _ => jumpTo_twoCycle ..)
  case retfie => exact halways (twoCycle_of_withPop ((exec_retfie s).symm.trans he) fun _ _ => rfl)
  case call k =>
    obtain ⟨u, -, ht⟩ := andThen_eq_next.1 he
    cases ht
    exact halways (jumpTo_twoCycle ..)
  all_goals cases he
  case goto k => exact halways (jumpTo_twoCycle ..)
  case clrw | addlw k | sublw k | andlw k | iorlw k | xorlw k | movlw k | nop | clrwdt | sleep => exact hnever (by simp)

end Sys2Proof.Machine
end

section
/-! PROOFS. What a step is in each kind of state (R95 to R100), and the steps that run no instruction. -/

namespace Sys2Proof.Machine

/-! ### The phase a step ends in -/

theorem step_of_fault {s : State} {k : FaultKind} (hp : s.params.prog ≠ []) (hf : s.fault = some k) :
    step s = .next (s.setCycles 0) := by
  rw [step, stepCore, if_neg hp, stepLoaded, hf]
  rfl

theorem step_of_intPending {s : State} (hp : s.params.prog ≠ []) (hf : s.fault = none) (hi : intPending s = true) :
    step s = interruptStep s := by
  rw [step, stepCore, if_neg hp, stepLoaded, hf, hi]
  rfl

theorem step_of_sleeping {s : State} (hp : s.params.prog ≠ []) (hf : s.fault = none) (hi : intPending s = false)
    (hs : (machineCycle s).sleeping = true) : step s = .next ((machineCycle s).setCycles 1) := by
  rw [step, stepCore, if_neg hp, stepLoaded, hf, hi, runningStep, hs]
  rfl

theorem step_of_awake {s : State} (hp : s.params.prog ≠ []) (hf : s.fault = none) (hi : intPending s = false)
    (hs : (machineCycle s).sleeping = false) : step s = runInstruction (machineCycle s) := by
  rw [step, stepCore, if_neg hp, stepLoaded, hf, hi, runningStep, hs]
  rfl

/-- Settles O45: the fault check comes before every phase. -/
theorem faultedCoreDoesNothing : Obligations.FaultedCoreDoesNothing := fun _ _ => step_of_fault

/-! ### The interrupt entry -/

theorem push_of_full {s : State} (h : 13 ≤ s.stack.length) (v : ProgAddr) :
    push v s = .fault (.stackOverflow (faultedAt .stackOverflow s)) := if_pos h

/-- Settles O49: the push decides, and after it the two writes of the entry reach the cells of PCL and INTCON. -/
theorem interruptEntryStep : Obligations.InterruptEntryStep := by
  intro s hp hf hi
  rw [step_of_intPending hp hf hi, interruptStep]
  refine ⟨fun hlen => ?_, fun hlen => ?_⟩
  · rw [intEntry_eq_next.2 ⟨hlen, rfl⟩]
    refine ⟨_, rfl, rfl, fun q => ?_⟩
    rw [State.setCycles_cell, setPC_cell, clearIntconBit_cell]
    rfl
  · rw [intEntry, push_of_full hlen]
    rfl

/-! ### The sleeping core -/

theorem prescalerRate_eq_mod (opt : Byte) : prescalerRate opt = opt.toNat % 8 := by
  rw [prescalerRate, BitVec.extractLsb'_toNat, Nat.shiftRight_zero]

theorem watchdogThreshold_eq_limit (s : State) : watchdogThreshold s = watchdogLimit s := by
  rw [watchdogThreshold, watchdogRatio, prescalerRate_eq_mod]
  rfl

/-- Below its limit a Watchdog tick only counts (R173, R174). -/
theorem wdtTick_of_lt_limit {s : State} (h : s.wdtAcc + 1 < watchdogLimit s) : wdtTick s = s.setWdtAcc (s.wdtAcc + 1) := by
  rw [← watchdogThreshold_eq_limit] at h
  rcases wdtTick_cases s with ⟨-, e⟩ | ⟨hle, -⟩ | ⟨hle, -⟩
  · exact e
  · exact absurd h (Nat.not_lt.2 hle)
  · exact absurd h (Nat.not_lt.2 hle)

/-- Settles O50: the Watchdog's tick leaves the core asleep, so Timer0 does not tick and the step ends. -/
theorem sleepingStepTicksTheWatchdogOnly : Obligations.SleepingStepTicksTheWatchdogOnly := by
  intro s hp hf hi hs hlt
  have hcycle : machineCycle s = s.setWdtAcc (s.wdtAcc + 1) := by
    rw [machineCycle, wdtTick_of_lt_limit hlt, State.setWdtAcc_sleeping, hs]
    rfl
  rw [step_of_sleeping hp hf hi (by rw [hcycle, State.setWdtAcc_sleeping, hs]), hcycle]

end Sys2Proof.Machine
end

section
/-! PROOFS. The steps that fetch (R100 to R107), and the steps that fault (R96, R152). -/

namespace Sys2Proof.Machine

/-! ### The fetch -/

/-- Settles O51: the program read faults in the state the first machine cycle leaves. -/
theorem fetchPastTheProgramFaults : Obligations.FetchPastTheProgramFaults := by
  rintro s _ rfl hp hf hi hs hlen
  have hread : progRead (machineCycle s).pc (machineCycle s) = .error (.pcOutOfRange (machineCycle s).pc) :=
    progRead_of_length_le (by rwa [machineCycle_params])
  rw [step_of_awake hp hf hi hs, runInstruction, hread]
  rfl

@[simp] theorem advance_twoCycle (s : State) : (advance s).twoCycle = s.twoCycle := rfl

/-- With nothing executed between them, the end of a step sets PC to the next address the fetch set, and PCL again. -/
theorem movedTo_finishStep_advance {c : State} (h : c.twoCycle = false) :
    MovedTo (BitVec.ofNat 13 (c.pc.toNat + 1)) (c.setCycles 1) (finishStep (advance c)) := by
  obtain ⟨-, -, -, -, hfinish, -⟩ := stepRunsTheDecodedInstruction
  have hend : finishStep (advance c) = (setPC (c.pc + 1) (advance c)).setCycles 1 := hfinish _ (by rw [advance_twoCycle, h])
  rw [← add_one_eq_ofNat, hend]
  refine ⟨rfl, fun q => ?_⟩
  rw [State.setCycles_cell, setPC_cell, advance_cell, lowByte_eq_ofNat, State.setCycles_cell]
  split_ifs <;> rfl

/-- Settles O44: nothing comes between the fetch and the end of the step. -/
theorem unmatchedWordIsANoOp : Obligations.UnmatchedWordIsANoOp := by
  intro s w e hw hone hd
  refine ⟨_, ?_, movedTo_finishStep_advance hone⟩
  rw [hw.step_eq, execWord, hd, andThen_next]

theorem finishStep_cycles (s : State) : (finishStep s).cycles = if s.twoCycle then 2 else 1 := by
  rcases finishStep_cases s with ⟨h, e⟩ | ⟨h, e⟩ <;> rw [h, e] <;> rfl

/-- Settles O52: the end of the step counts the second cycle where the instruction requested it. -/
theorem stepCycleCount : Obligations.StepCycleCount := by
  intro s t w i hw hd hone hstep
  rw [hw.step_eq, execWord, hd] at hstep
  obtain ⟨u, hu, ht⟩ := andThen_eq_next.1 hstep
  cases ht
  have hrequest := secondCycleRequests i _ u hu (by rw [advance_twoCycle, hone])
  rw [finishStep_cycles, ← hrequest]
  exact ⟨fun h => if_pos h, fun h => if_neg h⟩

/-! ### The faults -/

/-- The fault was raised: the state it leaves is the one it was raised in, but for `fault` and the cycles (R152). -/
def Fault.Raised (r : Fault) : Prop := ∃ k s, r = Fault.of k (faultedAt k s)

theorem raised_of_raise {k : FaultKind} {s : State} {r : Fault} (h : raise k s = .fault r) : r.Raised :=
  ⟨k, s, raise_eq_fault.1 h⟩

theorem raised_of_memWrite {a v : Byte} {s : State} {r : Fault} (h : memWrite a v s = .fault r) : r.Raised := by
  obtain ⟨-, u, -, -, -, -, e⟩ := memWrite_ne_next (a := a) (v := v) (s := s) (by simp [h])
  exact raised_of_raise (e ▸ h)

theorem raised_of_push {v : ProgAddr} {s : State} {r : Fault} (h : push v s = .fault r) : r.Raised := by
  unfold push at h
  split at h
  · exact raised_of_raise h
  · cases h

theorem raised_of_withPop {s : State} {r : Fault} {k : ProgAddr → State → State}
    (h : withPop s (fun v t => .next (k v t)) = .fault r) : r.Raised := by
  unfold withPop at h
  split at h
  · exact raised_of_raise h
  · cases h

/-- An instruction faults with its file operand's access (R59, R66) or with its push or pop (R42, R43). -/
theorem raised_of_exec {i : Instr} {s : State} {r : Fault} (h : exec i s = .fault r) : r.Raised := by
  obtain ⟨-, -, haccess⟩ := fileInstructionsFaultWithTheirAccess
  cases hop : fileOperand i with
  | some f =>
    rcases haccess s i f r hop h with ⟨-, -, k, -, rfl⟩ | ⟨-, a, -, hw⟩
    · exact ⟨k, s, rfl⟩
    · exact raised_of_memWrite hw
  | none =>
    cases i
    case call k =>
      rcases andThen_eq_fault.1 h with hpush | ⟨u, -, hu⟩
      · exact raised_of_push hpush
      · cases hu
    case ret => exact raised_of_withPop ((exec_ret s).symm.trans h)
    case retlw k => exact raised_of_withPop ((exec_retlw k s).symm.trans h)
    case retfie => exact raised_of_withPop ((exec_retfie s).symm.trans h)
    case clrw | addlw k | sublw k | andlw k | iorlw k | xorlw k | movlw k | goto k | nop | clrwdt | sleep => cases h
    all_goals cases hop

theorem raised_of_execWord {w : ProgWord} {s : State} {r : Fault} (h : execWord w s = .fault r) : r.Raised := by
  unfold execWord at h
  split at h
  · exact raised_of_exec h
  · cases h

theorem raised_of_runInstruction {s : State} {r : Fault} (h : runInstruction s = .fault r) : r.Raised := by
  unfold runInstruction at h
  split at h
  · exact raised_of_raise h
  · rcases andThen_eq_fault.1 h with hword | ⟨u, -, hu⟩
    · exact raised_of_execWord hword
    · cases hu

theorem raised_of_interruptStep {s : State} {r : Fault} (h : interruptStep s = .fault r) : r.Raised := by
  rcases andThen_eq_fault.1 h with hentry | ⟨u, -, hu⟩
  · rcases andThen_eq_fault.1 hentry with hpush | ⟨u, -, hu⟩
    · exact raised_of_push hpush
    · cases hu
  · cases hu

/-- A step that faults raised its fault, and the core has a program. -/
theorem step_eq_fault {s : State} {r : Fault} (h : step s = .fault r) : s.params.prog ≠ [] ∧ r.Raised := by
  by_cases hp : s.params.prog = []
  · rw [step, stepCore, if_pos hp] at h
    cases h
  refine ⟨hp, ?_⟩
  cases hf : s.fault with
  | some k =>
    rw [step_of_fault hp hf] at h
    cases h
  | none =>
    cases hi : intPending s with
    | true => exact raised_of_interruptStep (step_of_intPending hp hf hi ▸ h)
    | false =>
      cases hs : (machineCycle s).sleeping with
      | true =>
        rw [step_of_sleeping hp hf hi hs] at h
        cases h
      | false => exact raised_of_runInstruction (step_of_awake hp hf hi hs ▸ h)

/-- Settles O46: the state left has the fault and the program, so the next step is that of a faulted core. -/
theorem faultsAreSticky : Obligations.FaultsAreSticky := by
  intro s r h
  obtain ⟨-, -, hparams⟩ := nothingWritesTheProgram
  have hkept : r.left.params = s.params := hparams .step s r h
  obtain ⟨hp, k, u, rfl⟩ := step_eq_fault h
  rw [Fault.left_of] at hkept
  rw [Fault.left_of, Fault.kind_of]
  exact ⟨rfl, rfl, step_of_fault (hkept ▸ hp) rfl⟩

end Sys2Proof.Machine
end

section
/-! PROOFS. Where no EEPROM index is out of range, every instruction with a file operand completes (R59, R66, R115 to
R135). -/

namespace Sys2Proof.Machine

/-- An instruction of the `d` shape whose operand is read and whose result is stored leaves the store's state, with the flags
written (R112). -/
theorem fileOp_of_stored {f : FileAddr} {d : Dest} {s u : State} {a : Byte} {result : Byte → Byte}
    (hread : memRead (fileAddress f) s = .ok a) (hstore : Stored d f (result a) s u) (after : Byte → State → State) :
    fileOp f d s result after = .next (after a u) := by
  have hdest : dest d f (result a) s = .next u := by
    cases d with
    | w => rw [dest, hstore]
    | f => exact hstore
  exact fileOp_eq_next.2 ⟨a, u, hread, hdest, rfl⟩

namespace FileOperandOk

variable {f : FileAddr} {s : State} (h : FileOperandOk f s)
include h

theorem exists_read : ∃ a, memRead (fileAddress f) s = .ok a := (fileOperandsReadAndStore s f .w 0#8 h).1

theorem exists_stored (d : Dest) (r : Byte) : ∃ u, Stored d f r s u := (fileOperandsReadAndStore s f d r h).2

theorem exists_writeFile (r : Byte) : ∃ u, writeFile f r s = .next u := h.exists_stored .f r

/-- An instruction that reads its operand completes where it does with every byte. -/
theorem exists_withFile {k : Byte → Out} (hk : ∀ a, ∃ t, k a = .next t) : ∃ t, withFile f s k = .next t := by
  obtain ⟨a, ha⟩ := h.exists_read
  rw [withFile_of_ok ha]
  exact hk a

theorem exists_fileOp (d : Dest) (result : Byte → Byte) (after : Byte → State → State) :
    ∃ t, fileOp f d s result after = .next t := by
  obtain ⟨a, ha⟩ := h.exists_read
  obtain ⟨u, hu⟩ := h.exists_stored d (result a)
  exact ⟨_, fileOp_of_stored ha hu after⟩

end FileOperandOk

/-- Settles O14, by the shape of the instruction: the read completes, and so does the store of whatever byte. -/
theorem fileInstructionsComplete : Obligations.FileInstructionsComplete := by
  intro s i f hf h
  cases i <;> cases hf
  case bcf b | bsf b => exact h.exists_withFile fun _ => h.exists_writeFile _
  case btfsc b | btfss b => exact h.exists_withFile fun _ => ⟨_, rfl⟩
  case movwf => exact h.exists_writeFile s.w
  case clrf =>
    obtain ⟨u, hu⟩ := h.exists_writeFile 0x00#8
    exact ⟨_, andThen_eq_next.2 ⟨u, hu, rfl⟩⟩
  all_goals exact h.exists_fileOp _ _ _

end Sys2Proof.Machine
end

section
/-! PROOFS. The STATUS bits an instruction writes after its result, and the result statements of the instructions with a
`d` bit (R68, R112 to R121). -/

namespace Sys2Proof.Machine

/-! ### The flags as bits of STATUS -/

/-- STATUS bits of two masks written one after the other. -/
theorem StatusOnly.trans {m n val : Byte} {s t u : State} (h : StatusOnly m val s t) (k : StatusOnly n val t u) :
    StatusOnly (m ||| n) val s u := by
  obtain ⟨hframe, hcell⟩ := h
  obtain ⟨kframe, kcell⟩ := k
  have hmasks (x : Byte) : (x &&& ~~~m ||| val &&& m) &&& ~~~n ||| val &&& n = x &&& ~~~(m ||| n) ||| val &&& (m ||| n) := by
    ext j hj
    simp only [BitVec.getElem_or, BitVec.getElem_and, BitVec.getElem_not]
    cases val[j] <;> cases m[j] <;> cases n[j] <;> simp
  refine ⟨State.eq_setCells_trans hframe kframe, fun q => ?_⟩
  rw [kcell, hcell]
  split_ifs
  · exact hmasks _
  · rfl

/-- A write of one bit as the masked write `StatusOnly` speaks of. -/
theorem withBit_eq_masked {val : Byte} {n : Nat} {b : Bool} (h : val.getLsbD n = b) (x : Byte) :
    withBit x n b = x &&& ~~~(1#8 <<< n) ||| val &&& (1#8 <<< n) := by
  apply BitVec.eq_of_getLsbD_eq
  intro j hj
  have hone : (1#8 <<< n).getLsbD j = decide (j = n) := by
    rw [← BitVec.twoPow_eq, BitVec.getLsbD_twoPow]
    grind
  rw [withBit_getLsbD x n b j hj, BitVec.getLsbD_or, BitVec.getLsbD_and, BitVec.getLsbD_and, BitVec.getLsbD_not, hone]
  by_cases hjn : j = n
  · simp [hjn, h]
  · simp [hjn, hj]

/-- One flag written, where `val` has the flag's bit. -/
theorem setFlag_statusOnly {x : Flag} {v : Bool} {val : Byte} (h : val.getLsbD (flagBit x) = v) (s : State) :
    StatusOnly (1#8 <<< flagBit x) val s (setFlag x v s) := by
  refine ⟨setFlag_eq_setCells .., fun q => ?_⟩
  rw [setFlag_cell, withBit_eq_masked h]

theorem flagsByte_c (c dc z : Bool) : (flagsByte c dc z).getLsbD (flagBit .c) = c := by revert c dc z; decide

theorem flagsByte_dc (c dc z : Bool) : (flagsByte c dc z).getLsbD (flagBit .dc) = dc := by revert c dc z; decide

theorem flagsByte_z (c dc z : Bool) : (flagsByte c dc z).getLsbD (flagBit .z) = z := by revert c dc z; decide

theorem setArithFlags_statusOnly (c dc z : Bool) (s : State) :
    StatusOnly 0x07#8 (flagsByte c dc z) s (setArithFlags c dc z s) := by
  have hmask : 0x07#8 = 1#8 <<< flagBit .c ||| 1#8 <<< flagBit .dc ||| 1#8 <<< flagBit .z := by decide
  rw [hmask]
  have hc := setFlag_statusOnly (flagsByte_c c dc z) s
  have hdc := setFlag_statusOnly (flagsByte_dc c dc z) (setFlag .c c s)
  have hz := setFlag_statusOnly (flagsByte_z c dc z) (setFlag .dc dc (setFlag .c c s))
  exact (hc.trans hdc).trans hz

/-! ### The laws of the flags (R24, R113, R114) -/

theorem lowNibble_toNat (a : Byte) : (a &&& 0x0F#8).toNat = a.toNat % 16 := Nat.and_two_pow_sub_one_eq_mod a.toNat 4

theorem isZero_eq_decide {r : Byte} {p : Prop} [Decidable p] (h : r = 0#8 ↔ p) : isZero r = decide p := by
  rw [isZero, beq_eq_decide, decide_eq_decide.2 h]

theorem isZero_add (a b : Byte) : isZero (a + b) = decide ((a.toNat + b.toNat) % 256 = 0) :=
  isZero_eq_decide BitVec.toNat_inj.symm

theorem isZero_sub (a b : Byte) : isZero (a - b) = decide (a.toNat = b.toNat) :=
  isZero_eq_decide (sub_eq_zero.trans BitVec.toNat_inj.symm)

/-- The addition law of R113. -/
theorem setAddFlags_statusOnly (a b : Byte) (s : State) :
    StatusOnly 0x07#8
      (flagsByte (decide (0xFF < a.toNat + b.toNat)) (decide (0xF < a.toNat % 16 + b.toNat % 16))
        (decide ((a.toNat + b.toNat) % 256 = 0)))
      s (setAddFlags a b s) := by
  rw [setAddFlags, addCarry, addDigitCarry, lowNibble_toNat, lowNibble_toNat, isZero_add]
  exact setArithFlags_statusOnly ..

/-- The subtraction law of R114. -/
theorem setSubFlags_statusOnly (a b : Byte) (s : State) :
    StatusOnly 0x07#8
      (flagsByte (decide (b.toNat ≤ a.toNat)) (decide (b.toNat % 16 ≤ a.toNat % 16)) (decide (a.toNat = b.toNat)))
      s (setSubFlags a b s) := by
  rw [setSubFlags, subCarry, subDigitCarry, lowNibble_toNat, lowNibble_toNat, isZero_sub]
  exact setArithFlags_statusOnly ..

/-- Z alone, by what a zero result means for the operands (R24). -/
theorem setZeroFlag_statusOnly {r : Byte} {p : Prop} [Decidable p] (h : r = 0#8 ↔ p) (s : State) :
    StatusOnly 0x04#8 (flagsByte false false (decide p)) s (setZeroFlag r s) := by
  rw [setZeroFlag, isZero_eq_decide h]
  exact setFlag_statusOnly (flagsByte_z false false (decide p)) s

/-! ### Result statements -/

/-- An instruction of the `d` shape has a result statement where its result and its flags are the ones stated. -/
theorem fileResult_of_fileOp {i : FileAddr → Dest → Instr} {result r : State → Byte → Byte}
    {after : State → Byte → State → State} {mask : Byte} {val : State → Byte → Byte}
    (hexec : ∀ s f d, exec (i f d) s = fileOp f d s (result s) (after s)) (hresult : ∀ s a, result s a = r s a)
    (hafter : ∀ s a u, StatusOnly mask (val s a) u (after s a u)) : FileResult i r mask val := by
  intro s f d a u hread hstore
  rw [← hresult] at hstore
  exact ⟨_, (hexec s f d).trans (fileOp_of_stored hread hstore _), hafter s a u⟩

/-- An instruction of the `d` shape that writes Z alone. -/
theorem fileResult_of_zeroFlag {i : FileAddr → Dest → Instr} {result r : State → Byte → Byte}
    {p : State → Byte → Prop} [∀ s a, Decidable (p s a)]
    (hexec : ∀ s f d, exec (i f d) s = fileOp f d s (result s) fun a => setZeroFlag (result s a))
    (hresult : ∀ s a, result s a = r s a) (hzero : ∀ s a, result s a = 0#8 ↔ p s a) :
    FileResult i r 0x04#8 fun s a => flagsByte false false (decide (p s a)) :=
  fileResult_of_fileOp hexec hresult fun s a => setZeroFlag_statusOnly (hzero s a)

/-- Settles O15: ADDWF and ADDLW by the addition law, SUBWF and SUBLW by the subtraction law. -/
theorem additionAndSubtractionLaws : Obligations.AdditionAndSubtractionLaws := by
  refine ⟨?_, ?_, fun s k => ⟨_, rfl, ?_⟩, fun s k => ⟨_, rfl, ?_⟩⟩
  · exact fileResult_of_fileOp (fun _ _ _ => rfl) (fun s a => add_eq_ofNat s.w a) fun s a => setAddFlags_statusOnly s.w a
  · exact fileResult_of_fileOp (fun _ _ _ => rfl) (fun s a => sub_eq_ofNat a s.w) fun s a => setSubFlags_statusOnly a s.w
  · rw [← add_eq_ofNat]
    exact setAddFlags_statusOnly ..
  · rw [← sub_eq_ofNat]
    exact setSubFlags_statusOnly ..

/-- Settles O16: each is one logical operation, and its result is zero exactly where the statement's Z says. -/
theorem logicFileInstructions : Obligations.LogicFileInstructions := by
  refine ⟨?_, ?_, ?_, ?_, ?_⟩
  · exact fileResult_of_zeroFlag (fun _ _ _ => rfl) (fun _ _ => rfl) fun _ _ => Iff.rfl
  · exact fileResult_of_zeroFlag (fun _ _ _ => rfl) (fun _ _ => rfl) fun _ _ => BitVec.or_eq_zero_iff
  · exact fileResult_of_zeroFlag (fun _ _ _ => rfl) (fun _ _ => rfl) fun _ _ => BitVec.xor_eq_zero_iff
  · exact fileResult_of_zeroFlag (fun _ _ _ => rfl) (fun _ a => not_eq_ofNat a) fun _ _ => BitVec.not_eq_comm
  · exact fileResult_of_zeroFlag (fun _ _ _ => rfl) (fun _ _ => rfl) fun _ _ => Iff.rfl

end Sys2Proof.Machine
end

section
/-! PROOFS. The result statements of INCF, DECF, INCFSZ and DECFSZ (R109, R122 to R125). -/

namespace Sys2Proof.Machine

/-- The one operand that counting up takes to zero. -/
theorem add_one_eq_zero_iff (a : Byte) : a + 1#8 = 0#8 ↔ a = 0xFF#8 := eq_neg_iff_add_eq_zero.symm

/-- The one operand that counting down takes to zero. -/
theorem sub_one_eq_zero_iff (a : Byte) : a - 1#8 = 0#8 ↔ a = 0x01#8 := sub_eq_zero

/-- Settles O17: each counts by one, and its result is zero on the one operand the statement's Z names. -/
theorem incrementAndDecrement : Obligations.IncrementAndDecrement := by
  constructor
  · exact fileResult_of_zeroFlag (fun _ _ _ => rfl) (fun _ a => add_eq_ofNat a 1#8) fun _ a => add_one_eq_zero_iff a
  · exact fileResult_of_zeroFlag (fun _ _ _ => rfl) (fun _ a => sub_one_eq_ofNat a) fun _ a => sub_one_eq_zero_iff a

/-- The skip of R109 with its 13-bit wrap written out. -/
theorem skipIf_decide (p : Prop) [Decidable p] (s : State) :
    skipIf (decide p) s =
      if p then (s.setPcNext (BitVec.ofNat 13 (s.pcNext.toNat + 1))).setTwoCycle true else s := by
  rw [← add_one_eq_ofNat]
  rcases skipIf_cases (decide p) s with ⟨hp, e⟩ | ⟨hp, e⟩
  · rw [e, if_pos (of_decide_eq_true hp)]
  · rw [e, if_neg (of_decide_eq_false hp)]

/-- An instruction of the `d` shape that skips on a zero result leaves the store's state, moved on by the skip. -/
theorem fileOp_skip_of_stored {f : FileAddr} {d : Dest} {s u : State} {a r : Byte} {result : Byte → Byte}
    {p : Prop} [Decidable p] (hread : memRead (fileAddress f) s = .ok a) (hresult : result a = r)
    (hzero : result a = 0#8 ↔ p) (hstore : Stored d f r s u) :
    fileOp f d s result (fun a => skipIf (isZero (result a))) =
      .next (if p then (u.setPcNext (BitVec.ofNat 13 (u.pcNext.toNat + 1))).setTwoCycle true else u) := by
  subst hresult
  rw [fileOp_of_stored hread hstore, isZero_eq_decide hzero, skipIf_decide]

/-- Settles O18: the skip follows the store, on the operand that counting takes to zero. -/
theorem incrementAndDecrementSkip : Obligations.IncrementAndDecrementSkip := fun _ _ _ _ a hread =>
  ⟨fileOp_skip_of_stored hread (add_eq_ofNat a 1#8) (add_one_eq_zero_iff a),
    fileOp_skip_of_stored hread (sub_one_eq_ofNat a) (sub_one_eq_zero_iff a)⟩

end Sys2Proof.Machine
end

section
/-! PROOFS. The result statement of BTFSC and BTFSS (R109, R128, R129). -/

namespace Sys2Proof.Machine

/-- A bit test of an operand that reads `a` leaves the state as it was, moved on by the skip where the bit is `v`. -/
theorem testBit_of_read {f : FileAddr} {s : State} {a : Byte} (hread : memRead (fileAddress f) s = .ok a)
    (b : BitIndex) (v : Bool) :
    testBit f b v s =
      .next (if a.getLsbD b.toNat = v then
        (s.setPcNext (BitVec.ofNat 13 (s.pcNext.toNat + 1))).setTwoCycle true else s) := by
  rw [testBit, withFile_of_ok hread, beq_eq_decide, skipIf_decide]

/-- Settles O23: BTFSC tests for a clear bit, BTFSS for a set one. -/
theorem bitTestsSkip : Obligations.BitTestsSkip := fun _ _ b _ hread =>
  ⟨testBit_of_read hread b false, testBit_of_read hread b true⟩

end Sys2Proof.Machine
end

section
/-! PROOFS. The rotates (R130, R131): their result statement, and each as the inverse of the other. -/

namespace Sys2Proof.Machine

/-! ### Result statements -/

/-- C alone, where the bit rotated out is the one the statement's condition names (R22). -/
theorem setCarry_statusOnly {c : Bool} {p : Prop} [Decidable p] (h : c = decide p) (s : State) :
    StatusOnly 0x01#8 (flagsByte (decide p) false false) s (setFlag .c c s) := by
  rw [h]
  exact setFlag_statusOnly (flagsByte_c (decide p) false false) s

/-- Settles O19: RLF rotates bit 7 out, which is set from 128 on, and RRF bit 0, which is set in the odd bytes. -/
theorem rotatesThroughCarry : Obligations.RotatesThroughCarry := by
  constructor
  · refine fileResult_of_fileOp (fun _ _ _ => rfl) (fun s a => rotateLeft_eq_ofNat a s.carry) fun _ a => ?_
    exact setCarry_statusOnly (BitVec.msb_eq_getLsbD_last a ▸ BitVec.msb_eq_decide a)
  · refine fileResult_of_fileOp (fun _ _ _ => rfl) (fun s a => rotateRight_eq_ofNat a s.carry) fun _ a => ?_
    exact setCarry_statusOnly (Nat.testBit_zero a.toNat)

/-! ### One rotate after the other -/

theorem rotateLeft_getLsbD (a : Byte) (c : Bool) {n : Nat} (hn : n < 8) :
    (rotateLeft a c).getLsbD n = if n = 0 then c else a.getLsbD (n - 1) := by
  have hin : (if c then 0x01#8 else 0x00#8).getLsbD n = (decide (n = 0) && c) := by cases c <;> simp
  rw [rotateLeft, BitVec.getLsbD_or, BitVec.getLsbD_shiftLeft, hin]
  split_ifs with h <;> simp [h, hn]

theorem rotateRight_getLsbD (a : Byte) (c : Bool) (n : Nat) :
    (rotateRight a c).getLsbD n = if n = 7 then c else a.getLsbD (n + 1) := by
  have hin : (if c then 0x80#8 else 0x00#8).getLsbD n = (decide (n = 7) && c) := by
    cases c
    · simp
    · rw [if_pos rfl, show 0x80#8 = BitVec.twoPow 8 7 from rfl, BitVec.getLsbD_twoPow]
      simp [eq_comm]
  rw [rotateRight, BitVec.getLsbD_or, BitVec.getLsbD_ushiftRight, hin]
  split_ifs with h <;> simp [h, Nat.add_comm 1 n]

/-- A rotate of register `f` in place: `rotate` gives its new byte from the old one and C, and C receives bit `out` of the
old one. -/
def rotateFile (rotate : Byte → Bool → Byte) (out : Nat) (f : FileAddr) (s : State) : Out :=
  fileOp f .f s (fun a => rotate a s.carry) fun a => setFlag .c (a.getLsbD out)

theorem exec_rlf_file (f : FileAddr) (s : State) : exec (.rlf f .f) s = rotateFile rotateLeft 7 f s := rfl

theorem exec_rrf_file (f : FileAddr) (s : State) : exec (.rrf f .f) s = rotateFile rotateRight 0 f s := rfl

theorem setFlag_carry (c : Bool) (s : State) : (setFlag .c c s).carry = c := by
  rw [State.carry, State.status, setFlag_cell, if_pos (.inl rfl), withBit_getLsbD _ _ _ _ (by decide)]
  exact if_pos rfl

theorem setFlag_cell_of_ne_status {f : FileAddr} (h3 : f ≠ 3#7) (x : Flag) (v : Bool) (s : State) :
    (setFlag x v s).cell (fileAddress f) = s.cell (fileAddress f) := by
  have hne : ¬(fileAddress f = 0x03#8 ∨ fileAddress f = 0x83#8) := fun h =>
    h3 ((low7_fileAddress f).symm.trans ((low7_eq_iff _ 3#7).2 h))
  rw [setFlag_cell, if_neg hne]

section
variable {f : FileAddr} (hf : IsPlainShared f) (h3 : f ≠ 3#7)
include hf h3

/-- A rotate of a plain shared register other than STATUS writes its byte and C. -/
theorem exists_rotateFile (rotate : Byte → Bool → Byte) (out : Nat) (s : State) :
    ∃ t, rotateFile rotate out f s = .next t ∧
      t.cell (fileAddress f) = rotate (s.cell (fileAddress f)) s.carry ∧
      t.carry = (s.cell (fileAddress f)).getLsbD out := by
  have hread := hf.memRead_eq (low7_fileAddress f) s
  have hstore := hf.memWrite_eq (rotate (s.cell (fileAddress f)) s.carry) s
  refine ⟨_, fileOp_eq_next.2 ⟨_, _, hread, hstore, rfl⟩, ?_, setFlag_carry ..⟩
  rw [setFlag_cell_of_ne_status h3, setShared_cell, if_pos (low7_fileAddress f)]

/-- A second rotate restores byte and carry where it takes both back, whatever they were. -/
theorem rotateFile_undone {rotate back : Byte → Bool → Byte} {out outBack : Nat}
    (hbyte : ∀ a c, back (rotate a c) (a.getLsbD out) = a) (hcarry : ∀ a c, (rotate a c).getLsbD outBack = c)
    (s : State) :
    ∃ t u, rotateFile rotate out f s = .next t ∧ rotateFile back outBack f t = .next u ∧
      u.cell (fileAddress f) = s.cell (fileAddress f) ∧ carryIn u = carryIn s := by
  obtain ⟨t, ht, htbyte, htcarry⟩ := exists_rotateFile hf h3 rotate out s
  obtain ⟨u, hu, hubyte, hucarry⟩ := exists_rotateFile hf h3 back outBack t
  refine ⟨t, u, ht, hu, ?_, congrArg Bool.toNat ?_⟩
  · rw [hubyte, htbyte, htcarry, hbyte]
  · exact hucarry.trans (htbyte ▸ hcarry _ _)

end

theorem rotateRight_rotateLeft (a : Byte) (c : Bool) : rotateRight (rotateLeft a c) (a.getLsbD 7) = a := by
  apply BitVec.eq_of_getLsbD_eq
  intro n hn
  rw [rotateRight_getLsbD]
  split_ifs with h
  · rw [h]
  · rw [rotateLeft_getLsbD _ _ (by omega), if_neg (by omega), Nat.add_sub_cancel]

theorem rotateLeft_rotateRight (a : Byte) (c : Bool) : rotateLeft (rotateRight a c) (a.getLsbD 0) = a := by
  apply BitVec.eq_of_getLsbD_eq
  intro n hn
  rw [rotateLeft_getLsbD _ _ hn]
  split_ifs with h
  · rw [h]
  · rw [rotateRight_getLsbD, if_neg (by omega), Nat.sub_add_cancel (by omega)]

/-- Settles O20: the second rotate takes in the bit that the first put out, at the end it came from. -/
theorem rotatesAreInverse : Obligations.RotatesAreInverse := by
  intro s f hlo hhi
  have hf : IsPlainShared f := .inr (.inr ⟨by omega, hhi⟩)
  have h3 : f ≠ 3#7 := by rintro rfl; simp at hlo
  simp only [exec_rlf_file, exec_rrf_file]
  constructor
  · exact rotateFile_undone hf h3 rotateRight_rotateLeft (fun a c => rotateLeft_getLsbD a c (by decide)) s
  · exact rotateFile_undone hf h3 rotateLeft_rotateRight (fun a c => rotateRight_getLsbD a c 7) s

end Sys2Proof.Machine
end

section
/-! PROOFS. The result statements of SWAPF, MOVWF, CLRF and CLRW (R132 to R135). -/

namespace Sys2Proof.Machine

/-- Z set, as the masked write `StatusOnly` speaks of. -/
theorem setZ_statusOnly (s : State) : StatusOnly 0x04#8 0x04#8 s (setFlag .z true s) := by
  have hz : (0x04#8).getLsbD (flagBit .z) = true := rfl
  exact setFlag_statusOnly hz s

/-- Settles O21: each is its store, and after it CLRF and CLRW set Z. -/
theorem movesAndClears : Obligations.MovesAndClears := by
  refine ⟨fun s u f d a hread hstore => ?_, fun s u f hstore => hstore, fun s u f hstore => ?_, fun s => ?_⟩
  · rw [← swapNibbles_eq_ofNat] at hstore
    exact fileOp_of_stored hread hstore fun _ t => t
  · exact ⟨_, andThen_eq_next.2 ⟨u, hstore, rfl⟩, setZ_statusOnly u⟩
  · exact ⟨_, rfl, setZ_statusOnly (s.setW 0x00#8)⟩

end Sys2Proof.Machine
end

section
/-! PROOFS. The result statement of ANDLW, IORLW, XORLW and MOVLW (R138 to R141). -/

namespace Sys2Proof.Machine

/-- Settles O26: after W, each logical form writes Z alone, as its zero result says of W and the literal; MOVLW stops at W. -/
theorem literalLogicAndMove : Obligations.LiteralLogicAndMove := by
  refine fun s k => ⟨⟨_, rfl, ?andlw⟩, ⟨_, rfl, ?iorlw⟩, ⟨_, rfl, ?xorlw⟩, rfl⟩
  case andlw => exact setZeroFlag_statusOnly Iff.rfl _
  case iorlw => exact setZeroFlag_statusOnly BitVec.or_eq_zero_iff _
  case xorlw => exact setZeroFlag_statusOnly BitVec.xor_eq_zero_iff _

end Sys2Proof.Machine
end

section
/-! PROOFS. The control transfers: GOTO, CALL and the three returns (R142 to R147), and the request a RETFIE leaves
pending (R161). -/

namespace Sys2Proof.Machine

/-! ### GOTO and CALL -/

/-- The target of GOTO and CALL, as a number (R142). -/
theorem pageTarget_toNat (k : PageAddr) (s : State) :
    (pageTarget k s).toNat = (s.cell 0x0A#8).toNat / 8 % 4 * 2048 + k.toNat := by
  have h := Nat.two_pow_add_eq_or_of_lt (i := 11) k.isLt ((s.cell 0x0A#8).toNat / 8 % 4)
  rw [pageTarget, BitVec.toNat_append, BitVec.extractLsb'_toNat, Nat.shiftLeft_eq, Nat.shiftRight_eq_div_pow,
    Nat.mul_comm _ (2 ^ 11)]
  exact h.symm.trans (by omega)

theorem exec_goto (k : PageAddr) (s : State) : exec (.goto k) s = .next (jumpTo (pageTarget k s) s) := rfl

theorem exec_call (k : PageAddr) (s : State) :
    exec (.call k) s = andThen (push (s.pc + 1#13) s) fun t => .next (jumpTo (pageTarget k t) t) := rfl

/-- A CALL that completes had room, pushes the address after it and jumps; PCLATH is the one it started with. -/
theorem exec_call_eq_next {k : PageAddr} {s t : State} :
    exec (.call k) s = .next t ↔
      s.stack.length < 13 ∧ t = jumpTo (pageTarget k s) (s.setStack ((s.pc + 1#13) :: s.stack)) := by
  rw [exec_call, andThen_eq_next]
  constructor
  · rintro ⟨u, hpush, hjump⟩
    obtain ⟨hroom, rfl⟩ := push_eq_next.1 hpush
    exact ⟨hroom, (Host.Outcome.next.inj hjump).symm⟩
  · rintro ⟨hroom, rfl⟩
    exact ⟨_, push_eq_next.2 ⟨hroom, rfl⟩, rfl⟩

/-- Settles O27: the page target is the one address of that number, and the push decides whether a CALL completes. -/
theorem gotoAndCallTargets : Obligations.GotoAndCallTargets := by
  intro s k v hv
  obtain rfl : v = pageTarget k s := BitVec.eq_of_toNat_eq (hv.trans (pageTarget_toNat k s).symm)
  refine ⟨exec_goto k s, fun hroom => ?_, fun hfull => ?_⟩
  · rw [← add_one_eq_ofNat]
    exact exec_call_eq_next.2 ⟨hroom, rfl⟩
  · rw [exec_call, push_of_full hfull, andThen_fault]

/-! ### The returns -/

/-- A pop of a stack with an entry hands on the top and the rest (R43). -/
theorem withPop_of_cons {s : State} {v : ProgAddr} {rest : List ProgAddr} (h : s.stack = v :: rest)
    (k : ProgAddr → State → Out) : withPop s k = k v (s.setStack rest) := by
  rw [withPop, h]

/-- A RETFIE that completes sets GIE in both INTCON cells and changes no other bit of any cell (R147). -/
theorem exec_retfie_cell {s t : State} (h : exec .retfie s = .next t) (q : Byte) :
    t.cell q = if q = 0x0B#8 ∨ q = 0x8B#8 then s.cell q ||| 0x80#8 else s.cell q := by
  rw [exec_retfie] at h
  obtain ⟨v, rest, -, ht⟩ := withPop_eq_next.1 h
  cases ht
  exact setIntconBit_cell 7 (s.setStack rest) q

/-- Settles O28: each return is its pop, on the stack's top and rest. -/
theorem returnsPopTheStack : Obligations.ReturnsPopTheStack := by
  intro s k v rest hs
  have hretfie : exec .retfie s = .next (((setIntconBit 7 (s.setStack rest)).setPcNext v).setTwoCycle true) := by
    rw [exec_retfie, withPop_of_cons hs]
  rw [exec_ret, exec_retlw, withPop_of_cons hs, withPop_of_cons hs]
  exact ⟨rfl, rfl, _, hretfie, rfl, exec_retfie_cell hretfie⟩

/-- Settles O30: the CALL's push is on top of the stack that the RETURN pops. -/
theorem returnFollowsItsCall : Obligations.ReturnFollowsItsCall := by
  intro s t u k hcall hstack
  obtain ⟨-, rfl⟩ := exec_call_eq_next.1 hcall
  have hpushed : u.stack = (s.pc + 1#13) :: s.stack := hstack
  rw [exec_ret, withPop_of_cons hpushed]
  exact ⟨_, rfl, rfl, rfl⟩

/-! ### The request after a RETFIE -/

/-- A request is pending where GIE is set and one flag with its enable (R156). -/
theorem intPending_iff (s : State) :
    intPending s = true ↔
      s.intcon.getLsbD 7 = true ∧
      ((s.intcon.getLsbD 3 = true ∧ s.intcon.getLsbD 0 = true) ∨
       (s.intcon.getLsbD 4 = true ∧ s.intcon.getLsbD 1 = true) ∨
       (s.intcon.getLsbD 5 = true ∧ s.intcon.getLsbD 2 = true) ∨
       (s.intcon.getLsbD 6 = true ∧ s.eecon1.getLsbD 4 = true)) := by
  simp [intPending, or_assoc]

/-- Settles O31: GIE is the one bit a RETFIE writes, so the pair that was set still is. -/
theorem retfieLeavesTheRequestPending : Obligations.RetfieLeavesTheRequestPending := by
  intro s t he hpair
  have hintcon : t.intcon = s.cell 0x0B#8 ||| 0x80#8 := exec_retfie_cell he 0x0B#8
  have heecon1 : t.eecon1 = s.cell 0x88#8 := exec_retfie_cell he 0x88#8
  rw [intPending_iff, hintcon, heecon1]
  simpa using hpair

end Sys2Proof.Machine
end

section
/-! PROOFS. NOP, CLRWDT and SLEEP (R149 to R151). -/

namespace Sys2Proof.Machine

/-- TO and PD are two writes of one bit in each STATUS cell. -/
theorem setPowerFlags_cell (timeOut powerDown : Bool) (s : State) (q : Byte) :
    (setPowerFlags timeOut powerDown s).cell q =
      if q = 0x03#8 ∨ q = 0x83#8 then withBit (withBit (s.cell q) 4 timeOut) 3 powerDown else s.cell q := by
  rw [setPowerFlags, setFlag_cell, setFlag_cell]
  split_ifs <;> rfl

theorem withBit_power_set (v : Byte) : withBit (withBit v 4 true) 3 true = v ||| 0x18#8 := BitVec.or_assoc v 0x10#8 0x08#8

theorem withBit_power_sleep (v : Byte) : withBit (withBit v 4 true) 3 false = (v ||| 0x10#8) &&& 0xF7#8 := rfl

theorem exec_clrwdt (s : State) :
    exec .clrwdt s = .next (setPowerFlags true true (clearPrescalerRate (s.setWdtAcc 0))) := rfl

theorem exec_sleep (s : State) :
    exec .sleep s = .next ((setPowerFlags true false ((s.setSleeping true).setWdtAcc 0)).setPcNext s.pc) := rfl

/-- CLRWDT writes cells only, but for the Watchdog: PS, then TO and PD (R150). -/
theorem exec_clrwdt_eq_setCells {s t : State} (h : exec .clrwdt s = .next t) : t = (s.setWdtAcc 0).setCells t.cells := by
  cases h
  exact State.eq_setCells_trans (clearPrescalerRate_eq_setCells _) (setPowerFlags_eq_setCells ..)

/-- The STATUS cells and OPTION_REG are different cells, so neither of CLRWDT's two writes meets the other (R150). -/
theorem exec_clrwdt_cell {s t : State} (h : exec .clrwdt s = .next t) (q : Byte) :
    t.cell q =
      if q = 0x03#8 ∨ q = 0x83#8 then s.cell q ||| 0x18#8
      else if q = 0x81#8 ∧ s.params.clrwdtClearsPs = true then s.cell q &&& 0xF8#8
      else s.cell q := by
  cases h
  rw [setPowerFlags_cell, withBit_power_set, clearPrescalerRate_cell]
  by_cases hstatus : q = 0x03#8 ∨ q = 0x83#8
  · have hoption : q ≠ 0x81#8 := by rcases hstatus with rfl | rfl <;> decide
    simp [hstatus, hoption]
  · simp [hstatus]

/-- SLEEP writes TO and PD, and no other cell (R151). -/
theorem exec_sleep_cell {s t : State} (h : exec .sleep s = .next t) (q : Byte) :
    t.cell q = if q = 0x03#8 ∨ q = 0x83#8 then (s.cell q ||| 0x10#8) &&& 0xF7#8 else s.cell q := by
  cases h
  rw [State.setPcNext_cell, setPowerFlags_cell, withBit_power_sleep, State.setWdtAcc_cell, State.setSleeping_cell]

/-- SLEEP writes cells only, but for `sleeping`, the Watchdog and the next address, its own (R151). -/
theorem exec_sleep_eq_setCells {s t : State} (h : exec .sleep s = .next t) :
    t = (((s.setSleeping true).setWdtAcc 0).setPcNext s.pc).setCells t.cells := by
  cases h
  exact congrArg (State.setPcNext · s.pc) (setPowerFlags_eq_setCells ..)

/-- Settles O32: NOP is its state; CLRWDT and SLEEP are each a frame outside the cells, and every cell after them. -/
theorem nopClrwdtSleep : Obligations.NopClrwdtSleep := fun s =>
  ⟨rfl,
    ⟨_, exec_clrwdt s, exec_clrwdt_eq_setCells (exec_clrwdt s), exec_clrwdt_cell (exec_clrwdt s)⟩,
    ⟨_, exec_sleep s, exec_sleep_eq_setCells (exec_sleep s), exec_sleep_cell (exec_sleep s)⟩⟩

end Sys2Proof.Machine
end

section
/-! PROOFS. The Timer0 tick (R165 to R171): what it is in each mode, and the ticks of one prescaler period. -/

namespace Sys2Proof.Machine

/-! ### One tick -/

/-- A count of Timer0 is the increment that `Tmr0Counted` speaks of (R171). -/
theorem tmr0Inc_tmr0Counted (s : State) : Tmr0Counted s (tmr0Inc s) := by
  refine ⟨tmr0Inc_eq_setCells s, fun q => ?_⟩
  rw [tmr0Inc_cell, add_eq_ofNat]
  rfl

/-- In timer mode the tick is `timerModeTick`, and the sample is remembered (R165, R170). -/
theorem tmr0Tick_of_timerMode {s : State} (h : (s.cell 0x81#8).getLsbD 5 = false) :
    tmr0Tick s = (timerModeTick (s.cell 0x81#8) s).setT0ckPrev ((s.cell 0x05#8).getLsbD 4) := by
  simp only [tmr0Tick, State.optionReg, h, Bool.false_eq_true, if_false]

/-- In counter mode the tick is `counterModeTick`, and the sample is remembered (R169, R170). -/
theorem tmr0Tick_of_counterMode {s : State} (h : (s.cell 0x81#8).getLsbD 5 = true) :
    tmr0Tick s =
      (counterModeTick (s.cell 0x81#8) ((s.cell 0x05#8).getLsbD 4) s).setT0ckPrev ((s.cell 0x05#8).getLsbD 4) := by
  simp only [tmr0Tick, State.optionReg, h, if_true]

/-- The ratio of R167, with PS as the low three bits. -/
theorem timer0Ratio_eq (opt : Byte) : timer0Ratio opt = 2 ^ (opt.toNat % 8 + 1) := by
  rw [timer0Ratio, prescalerRate_eq_mod]

/-- Without a wait and with PSA = 0, a tick in timer mode is the prescaler's (R167). -/
theorem timerModeTick_of_prescaled {opt : Byte} {s : State} (hwait : s.tmr0Wait = 0) (hpsa : opt.getLsbD 3 = false) :
    timerModeTick opt s = prescaledTick opt s := by
  simp only [timerModeTick, hwait, hpsa, Nat.lt_irrefl, Bool.false_eq_true, if_false]

/-- Settles O36: the wait comes first, then PSA chooses between every tick and the ratio. -/
theorem timer0TimerMode : Obligations.Timer0TimerMode := by
  intro s hmode
  rw [tmr0Tick_of_timerMode hmode, ← timer0Ratio_eq]
  refine ⟨fun n hwait => ?_, fun hwait hpsa => ⟨_, tmr0Inc_tmr0Counted s, ?_⟩, fun hwait hpsa => ?_⟩
  · rw [timerModeTick, hwait, if_pos (Nat.succ_pos n), Nat.add_sub_cancel]
  · rw [timerModeTick, hwait, if_neg (Nat.lt_irrefl 0), if_pos hpsa]
  · rw [timerModeTick_of_prescaled hwait hpsa, prescaledTick]
    refine ⟨fun hlt => ?_, fun hle => ⟨_, tmr0Inc_tmr0Counted (s.setPrescCount 0), ?_⟩⟩
    · rw [if_neg (Nat.not_le.2 hlt)]
    · rw [if_pos hle]

/-- The edge of R169: rising with T0SE clear, falling with T0SE set. -/
theorem t0ckEdge_iff (opt : Byte) (prev sample : Bool) :
    t0ckEdge opt prev sample = true ↔
      (opt.getLsbD 4 = false ∧ prev = false ∧ sample = true) ∨ (opt.getLsbD 4 = true ∧ prev = true ∧ sample = false) := by
  unfold t0ckEdge
  cases opt.getLsbD 4 <;> simp

/-- Settles O37: the tick counts on the edge and otherwise only remembers the sample. -/
theorem timer0CounterMode : Obligations.Timer0CounterMode := by
  intro s hmode
  rw [tmr0Tick_of_counterMode hmode, ← t0ckEdge_iff, counterModeTick]
  refine ⟨fun hedge => ⟨_, tmr0Inc_tmr0Counted s, ?_⟩, fun hno => ?_⟩
  · rw [if_pos hedge]
  · rw [if_neg hno]

/-! ### One prescaler period -/

/-- From a cleared prescaler, the ticks below the ratio count in the prescaler only (R167); the sample is whatever was last
remembered. -/
theorem tmr0Tick_iterate_below_ratio {s : State} (hmode : (s.cell 0x81#8).getLsbD 5 = false)
    (hpsa : (s.cell 0x81#8).getLsbD 3 = false) (hwait : s.tmr0Wait = 0) (hcount : s.prescCount = 0) (n : Nat)
    (hn : n < 2 ^ ((s.cell 0x81#8).toNat % 8 + 1)) :
    ∃ b, tmr0Tick^[n] s = (s.setPrescCount n).setT0ckPrev b := by
  induction n with
  | zero =>
    have hcleared : s.setPrescCount 0 = s := by
      rw [← hcount]
      rfl
    exact ⟨s.t0ckPrev, by rw [hcleared]; rfl⟩
  | succ n ih =>
    obtain ⟨b, hb⟩ := ih (Nat.lt_of_succ_lt hn)
    obtain ⟨-, -, hprescaled⟩ := timer0TimerMode ((s.setPrescCount n).setT0ckPrev b) hmode
    refine ⟨(s.cell 0x05#8).getLsbD 4, ?_⟩
    rw [Function.iterate_succ_apply', hb]
    exact (hprescaled hwait hpsa).1 hn

/-- Settles O38: the tick after the last one below the ratio is the one that counts. -/
theorem timer0CountsOncePerRatio : Obligations.Timer0CountsOncePerRatio := by
  intro s hmode hpsa hwait hcount
  have hbelow := tmr0Tick_iterate_below_ratio hmode hpsa hwait hcount
  refine ⟨fun n hn => ?_, ?_⟩
  · obtain ⟨b, hb⟩ := hbelow n hn
    rw [hb]
    exact ⟨rfl, rfl⟩
  · obtain ⟨m, hm⟩ : ∃ m, 2 ^ ((s.cell 0x81#8).toNat % 8 + 1) = m + 1 := Nat.exists_eq_succ_of_ne_zero (by positivity)
    obtain ⟨b, hb⟩ := hbelow m (by omega)
    obtain ⟨-, -, hprescaled⟩ := timer0TimerMode ((s.setPrescCount m).setT0ckPrev b) hmode
    obtain ⟨u, ⟨hframe, hcell⟩, htick⟩ := (hprescaled hwait hpsa).2 (Nat.le_of_eq hm)
    rw [hm, Function.iterate_succ_apply', hb, htick]
    refine ⟨?_, ?_⟩
    · rw [State.setT0ckPrev_cell, hcell, if_pos rfl, BitVec.toNat_ofNat]
      rfl
    · rw [hframe]
      rfl

end Sys2Proof.Machine
end

section
/-! PROOFS. The Watchdog's tick at its limit, the power-on values (R174 to R176, R187 to R189), and what clears the
accumulator (R177). -/

namespace Sys2Proof.Machine

/-! ### The tick -/

/-- Settles O39: the first case of the tick. -/
theorem watchdogCountsBelowItsLimit : Obligations.WatchdogCountsBelowItsLimit := fun _ => wdtTick_of_lt_limit

/-- At its limit the Watchdog wakes a sleeping core (R175). -/
theorem wdtTick_of_sleeping {s : State} (hle : watchdogLimit s ≤ s.wdtAcc + 1) (hs : s.sleeping = true) :
    wdtTick s = setPC (s.pc + 1) ((s.setSleeping false).setWdtAcc 0) := by
  rw [← watchdogThreshold_eq_limit] at hle
  rcases wdtTick_cases s with ⟨hlt, -⟩ | ⟨-, -, e⟩ | ⟨-, hawake, -⟩
  · exact absurd hlt (Nat.not_lt.2 hle)
  · exact e
  · simp [hs] at hawake

/-- At its limit the Watchdog resets an awake core, with PD = 0 (R176). -/
theorem wdtTick_of_awake {s : State} (hle : watchdogLimit s ≤ s.wdtAcc + 1) (hs : s.sleeping = false) :
    wdtTick s = setFlag .powerDown false (resetCore s) := by
  rw [← watchdogThreshold_eq_limit] at hle
  rcases wdtTick_cases s with ⟨hlt, -⟩ | ⟨-, hasleep, -⟩ | ⟨-, -, e⟩
  · exact absurd hlt (Nat.not_lt.2 hle)
  · simp [hs] at hasleep
  · exact e

/-- Settles O40: the wake is a `SetPC`. -/
theorem watchdogWakesASleepingCore : Obligations.WatchdogWakesASleepingCore := by
  intro s hle hs
  obtain ⟨-, -, -, hsetPC, -, -⟩ := stepRunsTheDecodedInstruction
  rw [wdtTick_of_sleeping hle hs, ← add_one_eq_ofNat]
  exact hsetPC _ _

/-! ### The power-on values -/

/-- The reset contents of R187 as the table of R189 gives them. -/
theorem powerOnCell_eq_powerOnByte (q : Byte) : powerOnCell q.toNat = powerOnByte q := by
  simp only [powerOnCell, powerOnByte, ← BitVec.toNat_inj, BitVec.toNat_ofNat]
  grind

/-- Settles O53: the register file reads its power-on contents, and every other element is the power-on state's or kept. -/
theorem resetGivesThePowerOnValues : Obligations.ResetGivesThePowerOnValues := by
  intro s
  refine ⟨fun q => ?_, rfl, rfl, rfl, rfl, rfl, rfl, rfl, rfl, rfl, rfl, rfl, rfl⟩
  rw [resetCore_cell, powerOnCell_eq_powerOnByte]

/-- Settles O54: what a reset keeps is what the power-on state takes as arguments, beside no fault and no cycles. -/
theorem powerOnIsTheResetState : Obligations.PowerOnIsTheResetState := fun _ _ => ⟨rfl, rfl, rfl, rfl⟩

/-- Settles O41: the reset, with the one bit of its 0x18 in STATUS cleared. -/
theorem watchdogResetsAnAwakeCore : Obligations.WatchdogResetsAnAwakeCore := by
  intro s hle hs
  rw [wdtTick_of_awake hle hs]
  refine ⟨fun q => ?_, rfl, rfl, rfl, rfl, rfl, rfl, rfl, rfl, rfl, rfl, rfl, rfl⟩
  rw [setFlag_cell, resetCore_cell, powerOnCell_eq_powerOnByte]
  split_ifs with hstatus
  · rw [powerOnByte, if_pos hstatus]
    rfl
  · rfl

/-! ### What clears the accumulator -/

@[simp] theorem setPC_wdtAcc (v : ProgAddr) (s : State) : (setPC v s).wdtAcc = s.wdtAcc := by simp [setPC]

@[simp] theorem tmr0Tick_wdtAcc (s : State) : (tmr0Tick s).wdtAcc = s.wdtAcc := by
  obtain ⟨u, b, e, ⟨-, rfl⟩ | rfl | rfl | ⟨-, rfl⟩ | rfl⟩ := tmr0Tick_cases s <;> simp [e]

theorem wdtTick_wdtAcc (s : State) :
    (wdtTick s).wdtAcc = if watchdogLimit s ≤ s.wdtAcc + 1 then 0 else s.wdtAcc + 1 := by
  rw [← watchdogThreshold_eq_limit]
  rcases wdtTick_cases s with ⟨hlt, e⟩ | ⟨hle, -, e⟩ | ⟨hle, -, e⟩
  · rw [e, if_neg (Nat.not_le.2 hlt), State.setWdtAcc_wdtAcc]
  · rw [e, if_pos hle, setPC_wdtAcc, State.setWdtAcc_wdtAcc]
  · rw [e, if_pos hle, setFlag_wdtAcc, resetCore_wdtAcc]

/-- CLRWDT and SLEEP clear the accumulator, and the frame of every other instruction keeps it. -/
theorem exec_wdtAcc {i : Instr} {s t : State} (h : exec i s = .next t) :
    t.wdtAcc = if i = .clrwdt ∨ i = .sleep then 0 else s.wdtAcc := by
  split_ifs with hi
  · rcases hi with rfl | rfl
    · rw [exec_clrwdt_eq_setCells h]
      rfl
    · rw [exec_sleep_eq_setCells h]
      rfl
  · obtain ⟨hclrwdt, hsleep⟩ := not_or.1 hi
    obtain ⟨-, -, -, -, -, hkept, -⟩ := instructionFrame i s t h
    exact hkept hsleep hclrwdt

/-- The host's port write changes cells only (R183). -/
theorem hostPortWrite_eq_setCells (p : Port) (b : BitIndex) (v : Bool) (s : State) :
    hostPortWrite p b v s = s.setCells (hostPortWrite p b v s).cells := by
  cases p with
  | a => rfl
  | b => exact State.eq_setCells_trans (portbChange_eq_setCells ..) (State.setCell_eq_setCells ..)

/-- Settles O42, one event at a time. -/
theorem watchdogClearedByFourEventsOnly : Obligations.WatchdogClearedByFourEventsOnly := by
  refine ⟨fun _ _ _ => exec_wdtAcc, wdtTick_wdtAcc, tmr0Tick_wdtAcc, fun s t h => ?_, fun p b v s => ?_, resetCore_wdtAcc⟩
  · obtain ⟨-, rfl⟩ := intEntry_eq_next.1 h
    simp
  · rw [hostPortWrite_eq_setCells, State.setCells_wdtAcc]

end Sys2Proof.Machine
end

section
/-! PROOFS. The host's acts (R182, R183): the cells after a port write, and the invariant under a port write and a reset. -/

namespace Sys2Proof.Machine

/-! ### The port write -/

/-- A port write has the side effects of a store to the port's cell, and then its byte. -/
theorem hostPortWrite_eq (p : Port) (b : BitIndex) (v : Bool) (s : State) :
    hostPortWrite p b v s =
      (writeEffects (portCell p) (withBit (s.cell (portCell p)) b.toNat v) s).setCell (portCell p)
        (withBit (s.cell (portCell p)) b.toNat v) := by
  cases p <;> rfl

theorem portCell_eq_portb_iff (p : Port) : portCell p = 0x06#8 ↔ p = .b := by cases p <;> decide

/-- Settles O55: the port's cell takes the byte, and INTCON what the PORTB rule of a store gives. -/
theorem hostPortWriteEffect : Obligations.HostPortWriteEffect := by
  rintro s _ p b v c new hc hbits rfl
  obtain rfl : c = portCell p := by rw [hc]; cases p <;> rfl
  obtain rfl : new = withBit (s.cell (portCell p)) b.toNat v :=
    BitVec.eq_of_getLsbD_eq fun n hn => by rw [hbits n hn, withBit_getLsbD _ _ v n hn]
  refine ⟨hostPortWrite_eq_setCells .., fun q => ?_⟩
  rw [hostPortWrite_eq, State.setCell_cell, writeEffects_cell]
  simp only [portCell_eq_portb_iff, rb0Edge_iff, portbInputChange_iff]
  rfl

/-! ### The invariant -/

theorem State.Steady.hostPortWrite {s : State} (h : s.Steady) (p : Port) (b : BitIndex) (v : Bool) :
    (hostPortWrite p b v s).Steady := by
  rw [hostPortWrite_eq]
  cases p <;> exact (h.writeEffects ..).setCell rfl rfl _

/-- A port write reaches neither PCL nor PC. -/
theorem State.PcSettled.hostPortWrite {s : State} (h : s.PcSettled) (p : Port) (b : BitIndex) (v : Bool) :
    (hostPortWrite p b v s).PcSettled := by
  have hpcl : (Machine.hostPortWrite p b v s).cell 0x02#8 = s.cell 0x02#8 := by
    rw [hostPortWrite_eq, State.setCell_cell, writeEffects_cell]
    cases p <;> rfl
  constructor
  · rw [hpcl, hostPortWrite_eq_setCells, State.setCells_pc, h.pclMirror]
  · rw [hostPortWrite_eq_setCells, State.setCells_pc, State.setCells_pcNext, h.pcNextEq]

theorem State.Inv.hostPortWrite {s : State} (h : s.Inv) (p : Port) (b : BitIndex) (v : Bool) :
    (hostPortWrite p b v s).Inv := by
  have hone : (Machine.hostPortWrite p b v s).twoCycle = false := by
    rw [hostPortWrite_eq_setCells, State.setCells_twoCycle, h.oneCycle]
  have hcycles : (Machine.hostPortWrite p b v s).cycles ≤ 2 := by
    rw [hostPortWrite_eq_setCells, State.setCells_cycles]
    exact h.cyclesBound
  exact (h.steady.hostPortWrite p b v).inv_setCycles (h.pcSettled.hostPortWrite p b v) hone hcycles

/-- Every power-on state meets the invariant: the power-on contents agree in the two cells of each aliased register and are 0
where nothing is implemented. -/
theorem powerOn_inv (p : Params) {m : Memory} (hm : Memory.wf .eeprom m) : (State.powerOn p m).Inv where
  cellsWf := Memory.wf_nil _
  eeWf := hm
  aliasSync := by
    show ∀ lo : FileAddr, isAliased lo = true →
      powerOnCell (fileAddress lo).toNat = powerOnCell (fileAddress lo ||| 0x80#8).toNat
    decide
  unimplementedZero := by
    show ∀ q : Byte, isUnimplemented q = true → powerOnCell q.toNat = 0#8
    decide
  stackBound := Nat.zero_le _
  prescBound := Nat.zero_le _
  waitBound := Nat.zero_le _
  oneCycle := rfl
  pclMirror := rfl
  pcNextEq := rfl
  cyclesBound := Nat.zero_le _

/-- Settles O58: the reset state is a power-on state with an EEPROM that lists nothing. -/
theorem resetMeetsTheInvariant : Obligations.ResetMeetsTheInvariant :=
  ⟨powerOn_inv _ (Memory.wf_nil _), fun p _ => powerOn_inv p⟩

/-- A reset leaves a power-on state but for `fault`, of which the invariant does not speak, and `cycles`, which it keeps. -/
theorem State.Inv.resetCore {s : State} (h : s.Inv) : (resetCore s).Inv :=
  { powerOn_inv s.params h.eeWf with cyclesBound := h.cyclesBound }

/-- Settles O57: the reset gives a power-on state, and a port write reaches no aliased register but INTCON. -/
theorem hostActsKeepTheInvariant : Obligations.HostActsKeepTheInvariant := fun _ h => ⟨h.resetCore, h.hostPortWrite⟩

end Sys2Proof.Machine
end

section
/-! PROOFS. The pending interrupt (R156), and the one refusal of a step, that of a core without a program (U12). -/

namespace Sys2Proof.Machine

/-- Settles O48: INTCON and EECON1 are those cells. -/
theorem interruptPendingIsTheFourPairs : Obligations.InterruptPendingIsTheFourPairs := intPending_iff

/-! ### No operation refuses -/

/-- The outcome is a next state or a fault. -/
def NotRefused (o : Out) : Prop := ∀ r, o ≠ .refused r

theorem notRefused_next (s : State) : NotRefused (.next s) := fun _ h => by cases h

theorem notRefused_raise (k : FaultKind) (s : State) : NotRefused (raise k s) := raise_ne_refused k s

theorem notRefused_andThen {o : Out} {k : State → Out} (ho : NotRefused o) (hk : ∀ t, NotRefused (k t)) :
    NotRefused (andThen o k) := by
  intro r h
  rcases andThen_eq_refused.1 h with hr | ⟨t, -, hr⟩
  · exact ho r hr
  · exact hk t r hr

theorem notRefused_withFile {f : FileAddr} {s : State} {k : Byte → Out} (hk : ∀ a, NotRefused (k a)) :
    NotRefused (withFile f s k) := by
  unfold withFile
  split
  · exact hk _
  · exact notRefused_raise _ _

theorem notRefused_memWrite (a v : Byte) (s : State) : NotRefused (memWrite a v s) := by
  intro r h
  obtain ⟨-, u, -, -, -, -, e⟩ := memWrite_ne_next (a := a) (v := v) (s := s) (by simp [h])
  exact raise_ne_refused _ u r (e ▸ h)

theorem notRefused_fileOp (f : FileAddr) (d : Dest) (s : State) (result : Byte → Byte) (after : Byte → State → State) :
    NotRefused (fileOp f d s result after) := by
  have hdest (a : Byte) : NotRefused (dest d f (result a) s) := by
    cases d with
    | w => exact notRefused_next _
    | f => exact notRefused_memWrite _ _ _
  exact notRefused_withFile fun a => notRefused_andThen (hdest a) fun _ => notRefused_next _

theorem notRefused_push (v : ProgAddr) (s : State) : NotRefused (push v s) := by
  unfold push
  split
  · exact notRefused_raise _ _
  · exact notRefused_next _

theorem notRefused_withPop (s : State) (k : ProgAddr → State → State) :
    NotRefused (withPop s fun v t => .next (k v t)) := by
  unfold withPop
  split
  · exact notRefused_raise _ _
  · exact notRefused_next _

/-- Every instruction has a meaning. -/
theorem notRefused_exec (i : Instr) (s : State) : NotRefused (exec i s) := by
  cases i
  case addwf f d | subwf f d | andwf f d | iorwf f d | xorwf f d | comf f d | movf f d | incf f d | decf f d
      | incfsz f d | decfsz f d | rlf f d | rrf f d | swapf f d =>
    exact notRefused_fileOp f d s _ _
  case bcf f b | bsf f b => exact notRefused_withFile fun _ => notRefused_memWrite _ _ _
  case btfsc f b | btfss f b => exact notRefused_withFile fun _ => notRefused_next _
  case movwf f => exact notRefused_memWrite _ _ _
  case clrf f => exact notRefused_andThen (notRefused_memWrite _ _ _) fun _ => notRefused_next _
  case call k => exact notRefused_andThen (notRefused_push _ _) fun _ => notRefused_next _
  case ret => exact notRefused_withPop s _
  case retlw k => exact notRefused_withPop s fun v t => jumpTo v (t.setW k)
  case retfie => exact notRefused_withPop s fun v t => ((setIntconBit 7 t).setPcNext v).setTwoCycle true
  case clrw | addlw k | sublw k | andlw k | iorlw k | xorlw k | movlw k | goto k | nop | clrwdt | sleep =>
    exact notRefused_next _

/-! ### The step -/

theorem notRefused_execWord (word : ProgWord) (s : State) : NotRefused (execWord word s) := by
  unfold execWord
  split
  · exact notRefused_exec _ _
  · exact notRefused_next _

theorem notRefused_runInstruction (s : State) : NotRefused (runInstruction s) := by
  unfold runInstruction
  split
  · exact notRefused_raise _ _
  · exact notRefused_andThen (notRefused_execWord _ _) fun _ => notRefused_next _

theorem notRefused_interruptStep (s : State) : NotRefused (interruptStep s) :=
  notRefused_andThen (notRefused_andThen (notRefused_push _ _) fun _ => notRefused_next _) fun _ => notRefused_next _

theorem step_of_no_program {s : State} (h : s.params.prog = []) : step s = .refused .programNotLoaded := if_pos h

/-- With a program, a step is one of its phases, none of which refuses. -/
theorem notRefused_step {s : State} (hp : s.params.prog ≠ []) : NotRefused (step s) := by
  rw [step, stepCore, if_neg hp, stepLoaded, runningStep]
  split_ifs
  · exact notRefused_next _
  · exact notRefused_interruptStep s
  · exact notRefused_next _
  · exact notRefused_runInstruction _

/-- Settles O47: the check for a program is the step's first, and its only refusal. -/
theorem emptyProgramIsRefused : Obligations.EmptyProgramIsRefused :=
  ⟨fun _ => step_of_no_program, fun _ => notRefused_step⟩

end Sys2Proof.Machine
end
